-- ==== Sys2Proof/Word.lean ====
section
/-! DEFINITION. The word types of the block (R11, R71, R101) and single bits as one-bit words. -/

namespace Sys2Proof

/-- One ring element: the addressable unit (R71). -/
abbrev Byte := BitVec 8

/-- A command, event, output or response word (R101, R110). -/
abbrev Word := BitVec 32

/-- The operand part of a word, bits 23:0 (R101). -/
abbrev Arg := BitVec 24

/-- An I2C address field, wide enough for a 10-bit address (R36). -/
abbrev I2cAddr := BitVec 10

/-- The number of an external interrupt source (R22, R103 formats `I` and `X`). -/
abbrev Source := BitVec 8

/-- A flag as one bit of a word. -/
abbrev bit (b : Bool) : BitVec 1 := BitVec.ofBool b

end Sys2Proof
end

