-- ==== Sys2Proof/Config.lean ====
section
/-! DEFINITION. What an implementation fixes (R7, R8), the uninterpreted functions (R9) and the environment's free
choices (R10, R50, R311). The opaque constants have no body: no proof can learn what they are. -/

namespace Sys2Proof

/-- The SPI configuration record of R40: clock divider, bit order (true is MSB-first) and data mode. -/
structure SpiCfg where
  div   : BitVec 16
  order : Bool
  mode  : BitVec 2
deriving DecidableEq, Repr, Inhabited

/-- The settings operand of `S_BEGINTRANS` (R262): a clock-rate code where `SpiCfg` has a divider. -/
structure SpiSettings where
  rate  : BitVec 16
  order : Bool
  mode  : BitVec 2
deriving DecidableEq, Repr, Inhabited

/-- One presentation at the block's input ports (R10, R100, R311).
DESIGN CHOICE (log 1): which of them comes next is the environment's, as plain data. -/
inductive Stimulus where
  /-- RST is asserted (R360). -/
  | rst
  /-- A word on the CMD port with the MISO signal of that step (R100, R268). -/
  | cmd (word : Word) (miso : BitVec 16)
  /-- A word on the EVT port (R100). -/
  | evt (word : Word)
  /-- SW tries the wait-resolution step of the top frame (R311 item 2). -/
  | resolve
deriving DecidableEq, Repr, Inhabited

/-- `uart_div`, the clock-divider configuration for a requested bitrate: uninterpreted (R9, U5; log 5). -/
opaque Config.uartDiv : BitVec 24 → BitVec 32

/-- `spi_div`, the SPI clock divider for a clock-rate code: uninterpreted (R9, U6; log 5). -/
opaque Config.spiDiv : BitVec 16 → BitVec 16

/-- `SPI_DEFAULT_CFG`, the configuration `S_BEGIN` applies: open (R8, U7; log 5). -/
opaque Config.spiDefaultCfg : SpiCfg

/-- The bits of `u_div` until a rule gives it a value: open (R362, U3; log 6). -/
opaque Config.uartDivAtReset : BitVec 32

/-- The bits of `u_txreg` until a rule gives it a value: open (R362, U3; log 6). -/
opaque Config.txregAtReset : Byte

/-- Whether the bits of `i_saved_mode` read SLAVE until a rule gives it a value: open (R362, U3; log 6). -/
opaque Config.slaveSavedAtReset : Bool

/-- The bits of `s_cfg` until a rule gives a component a value: open (R362, U3; log 6). -/
opaque Config.spiCfgAtReset : SpiCfg

/-- The bits of `s_saved` until a rule gives it a value: open (R362, U3; log 6). -/
opaque Config.spiSavedAtReset : SpiCfg

/-- What the environment presents at its `n`-th free choice, under no law (R311, R384, U13, U14; log 1). -/
opaque Config.environment : Nat → Stimulus

/-- The implementation parameters of R7 and R8. DESIGN CHOICE (log 4): carried in the state, never written by a step,
so that a statement about every state is a statement about every implementation. -/
structure Params where
  nUtx        : Nat
  nUrx        : Nat
  nItx        : Nat
  nIrx        : Nat
  nsrc        : Nat
  addrTimeout : BitVec 32
  terminator  : Byte
  spiDefault  : SpiCfg
  wordW       : Nat
  native9     : Bool
deriving DecidableEq, Repr

/-- `NSRC` where the spec gives it no other value (R8). -/
def Config.nsrcDefault : Nat := 8

/-- The defaults of R7 and R8; `SPI_DEFAULT_CFG` has none and stays free. -/
def Params.default : Params where
  nUtx := 16
  nUrx := 16
  nItx := 16
  nIrx := 16
  nsrc := Config.nsrcDefault
  addrTimeout := 50#32
  terminator := 0x00#8
  spiDefault := Config.spiDefaultCfg
  wordW := 16
  native9 := false

/-- `IW(N) = ceil(log2 N)`, the width of a ring index, for `N` of at least 2 (R7). -/
def indexWidth (n : Nat) : Nat := Nat.log2 (n - 1) + 1

/-- A legal ring modulus for a target word size: `2 ≤ N ≤ 256` (R7) and `IW(N) ≤ WORD_W` (R372). -/
abbrev legalModulus (wordW n : Nat) : Prop := 2 ≤ n ∧ n ≤ 256 ∧ indexWidth n ≤ wordW

/-- The ranges of R7, R8 and R372. -/
abbrev Params.wf (p : Params) : Prop :=
  legalModulus p.wordW p.nUtx ∧ legalModulus p.wordW p.nUrx ∧ legalModulus p.wordW p.nItx
    ∧ legalModulus p.wordW p.nIrx ∧ 1 ≤ p.nsrc ∧ p.nsrc ≤ 32 ∧ 16 ≤ p.wordW

end Sys2Proof
end

