-- ==== Sys2Proof/Syntax.lean ====
section
/-! DEFINITION. The instructions: one constructor for each row of spec/opcode_table.json (R104 to R108, R113), with the
operands its format gives it (R103). Operand codes that R111 limits to a list of names are inductive types here, so
that the machine never sees a raw code. -/

namespace Sys2Proof

/-- `U_SETPARITY`'s operand and the field `u_parity` (R32, R170). -/
inductive Parity where
  | none | odd | even
deriving DecidableEq, Repr

/-- `S_USINGINT`'s `irqmode` and the field `s_irq_mode` (R41, R274). -/
inductive IrqMode where
  | none | one | all
deriving DecidableEq, Repr

/-- The one-hot `cause` of `EV_I_CTRL` (R111, R222). -/
inductive CtrlCause where
  | al | nack | start | stop
deriving DecidableEq, Repr

/-- The `kind` of an `O_CB` output word (R113). -/
inductive CbKind where
  | xint | req | rcv | brk
deriving DecidableEq, Repr

/-- The `len` of an `O_S_XFER` output word: 8, 9 or 16 bits (R113). -/
inductive XferLen where
  | bits8 | bits9 | bits16
deriving DecidableEq, Repr

/-- One constructor per row of spec/opcode_table.json. -/
inductive Instr where
  -- SYS commands (R104)
  | sysGetstat
  | sysEint
  | sysDint
  | sysXie (src : Source) (val : Bool)
  | sysGetxie
  | sysIret
  -- UART commands (R105)
  | uBegin (rate : BitVec 24)
  | uEnd
  | uWrite (byte : Byte)
  | uRead
  | uPeek
  | uAvail
  | uFlush
  | uSet7bit (flag : Bool)
  | uSetstop (flag : Bool)
  | uSetparity (sel : Parity)
  | uSendbreak
  | uAttachbrk
  | uDetachbrk
  | uCaps
  | uGetstat
  -- I2C commands (R106)
  | iBegin (slave ten : Bool) (addr : I2cAddr)
  | iEnd
  | iBegintx (ten : Bool) (addr : I2cAddr)
  | iWrite (byte : Byte)
  | iEndtx
  | iReqfrom (count : Byte) (ten : Bool) (addr : I2cAddr)
  | iRead
  | iPeek
  | iAvail
  | iOnreceive (flag : Bool)
  | iOnrequest (flag : Bool)
  | iGetstat
  -- SPI commands (R107)
  | sBegin
  | sEnd
  | sBegintrans (settings : SpiSettings)
  | sEndtrans
  | sXfer (byte : Byte)
  | sXfer16 (half : BitVec 16)
  | sXfer9 (nine : BitVec 9)
  | sSetdiv (half : BitVec 16)
  | sSetorder (flag : Bool)
  | sSetmode (mode : BitVec 2)
  | sUsingint (irqmode : IrqMode) (src : Source)
  | sGetcfg
  -- Events (R108)
  | evTick
  | evXint (src : Source)
  | evUTxrdy
  | evURxrdy (byte : Byte)
  | evUBreak
  | evIData (byte : Byte)
  | evICtrl (cause : CtrlCause) (dir : Bool)
  | evIAddrack
  | evIStopdone
  -- Output events (R113)
  | oCb (kind : CbKind) (info : Byte)
  | oUTx (byte : Byte)
  | oIStart (rw ten : Bool) (addr : I2cAddr)
  | oITx (byte : Byte)
  | oIStop
  | oINack
  | oSXfer (len : XferLen) (mode : BitVec 2) (order : Bool) (value : BitVec 16)
deriving DecidableEq, Repr

/-- The ports a word belongs to (R102). -/
inductive Port where
  | cmd | evt | out
deriving DecidableEq, Repr

end Sys2Proof
end

