-- ==== Sys2Proof/WellFormed.lean ====
section
/-! DEFINITION. Well-formed instructions: the value constraints of R111 that the operand types do not already express. -/

namespace Sys2Proof

/-- Formats `A`, `AS`, `AQ`: with `ten = 0` the address has 7 bits (R111). -/
def addrFits (ten : Bool) (addr : I2cAddr) : Bool := ten || addr.toNat < 128

/-- Format `AS`: a master has no own address (R111). -/
def ownAddrFits (slave ten : Bool) (addr : I2cAddr) : Bool :=
  addrFits ten addr && (slave || (!ten && addr == 0))

/-- Format `X` and `EV_XINT`: the source exists (R111). -/
def sourceFits (nsrc : Nat) (src : Source) : Bool := src.toNat < nsrc

/-- Format `I`: a source is named exactly under `IRQ_ONE` (R111). -/
def irqFits (nsrc : Nat) (mode : IrqMode) (src : Source) : Bool :=
  match mode with
  | .one => sourceFits nsrc src
  | .none => src == 0
  | .all => src == 0

/-- Format `C`: `dir` goes with START only (R111). -/
def ctrlFits (cause : CtrlCause) (dir : Bool) : Bool :=
  match cause with
  | .start => true
  | .al => !dir
  | .nack => !dir
  | .stop => !dir

/-- The value constraints of R111, in a block with `nsrc` external interrupt sources. -/
def wellFormed (nsrc : Nat) : Instr → Bool
  | .sysGetstat => true
  | .sysEint => true
  | .sysDint => true
  | .sysXie src _ => sourceFits nsrc src
  | .sysGetxie => true
  | .sysIret => true
  | .uBegin _ => true
  | .uEnd => true
  | .uWrite _ => true
  | .uRead => true
  | .uPeek => true
  | .uAvail => true
  | .uFlush => true
  | .uSet7bit _ => true
  | .uSetstop _ => true
  | .uSetparity _ => true
  | .uSendbreak => true
  | .uAttachbrk => true
  | .uDetachbrk => true
  | .uCaps => true
  | .uGetstat => true
  | .iBegin slave ten addr => ownAddrFits slave ten addr
  | .iEnd => true
  | .iBegintx ten addr => addrFits ten addr
  | .iWrite _ => true
  | .iEndtx => true
  | .iReqfrom _ ten addr => addrFits ten addr
  | .iRead => true
  | .iPeek => true
  | .iAvail => true
  | .iOnreceive _ => true
  | .iOnrequest _ => true
  | .iGetstat => true
  | .sBegin => true
  | .sEnd => true
  | .sBegintrans _ => true
  | .sEndtrans => true
  | .sXfer _ => true
  | .sXfer16 _ => true
  | .sXfer9 _ => true
  | .sSetdiv _ => true
  | .sSetorder _ => true
  | .sSetmode _ => true
  | .sUsingint irqmode src => irqFits nsrc irqmode src
  | .sGetcfg => true
  | .evTick => true
  | .evXint src => sourceFits nsrc src
  | .evUTxrdy => true
  | .evURxrdy _ => true
  | .evUBreak => true
  | .evIData _ => true
  | .evICtrl cause dir => ctrlFits cause dir
  | .evIAddrack => true
  | .evIStopdone => true
  | .oCb _ _ => true
  | .oUTx _ => true
  | .oIStart _ _ _ => true
  | .oITx _ => true
  | .oIStop => true
  | .oINack => true
  | .oSXfer _ _ _ _ => true

end Sys2Proof
end

