-- ==== Sys2Proof/Decode.lean ====
section
/-! DEFINITION. The words of the block: decoding (R101, R103, R109, R111, R112), the port split, the encoder written from
the same tables, and the opcode table's masks. Words are 32-bit values on parallel ports, so a word has no byte order
(R73, R100). -/

namespace Sys2Proof

/-- The codes of `raise Illegal` (R110, R320). -/
inductive IllCode where
  | opcode | operand | refused | port
deriving DecidableEq, Repr

/-- The number of an illegal code (R110, R320). -/
def IllCode.code : IllCode → Word
  | .opcode => 1#32
  | .operand => 2#32
  | .refused => 3#32
  | .port => 4#32

/-! ### Fields of a word -/

/-- `w[31:28]`, the component and port (R101). -/
def unitOf (w : Word) : BitVec 4 := w.extractLsb' 28 4

/-- `w[31:24]`: `unit` and `op` together, the table's key (R101). -/
def keyOf (w : Word) : BitVec 8 := w.extractLsb' 24 8

/-- `w[23:0]`, the operand (R101). -/
def argOf (w : Word) : Arg := w.extractLsb' 0 24

/-- `a[lo+len-1:lo]` (R11). -/
abbrev field (a : Arg) (lo len : Nat) : BitVec len := a.extractLsb' lo len

/-- `a[i]` as a flag (R11). -/
abbrev flagAt (a : Arg) (i : Nat) : Bool := field a i 1 == 1#1

/-! ### Operand codes -/

/-- `sel` of `U_SETPARITY`: 0 none, 1 odd, 2 even (R170). -/
def Parity.code : Parity → BitVec 2
  | .none => 0#2
  | .odd => 1#2
  | .even => 2#2

/-- `sel` read; 3 is no parity (R111). -/
def parityOf (b : BitVec 2) : Option Parity :=
  match b with
  | 0#2 => some .none
  | 1#2 => some .odd
  | 2#2 => some .even
  | _ => none

/-- `irqmode` of `S_USINGINT`: 0 none, 1 one, 2 all (R41, R274). -/
def IrqMode.code : IrqMode → BitVec 2
  | .none => 0#2
  | .one => 1#2
  | .all => 2#2

/-- `irqmode` read; 3 is no mode (R111). -/
def irqModeOf (b : BitVec 2) : Option IrqMode :=
  match b with
  | 0#2 => some .none
  | 1#2 => some .one
  | 2#2 => some .all
  | _ => none

/-- The one-hot `cause` of `EV_I_CTRL` (R108). -/
def CtrlCause.code : CtrlCause → BitVec 4
  | .al => 0x1#4
  | .nack => 0x2#4
  | .start => 0x4#4
  | .stop => 0x8#4

/-- `cause` read; exactly one bit must be set (R111). -/
def causeOf (b : BitVec 4) : Option CtrlCause :=
  match b with
  | 0x1#4 => some .al
  | 0x2#4 => some .nack
  | 0x4#4 => some .start
  | 0x8#4 => some .stop
  | _ => none

/-- `kind` of `O_CB`: 0 XINT, 1 REQ, 2 RCV, 3 BRK (R113). -/
def CbKind.code : CbKind → BitVec 2
  | .xint => 0#2
  | .req => 1#2
  | .rcv => 2#2
  | .brk => 3#2

/-- `kind` read (R113). -/
def cbKindOf (b : BitVec 2) : CbKind :=
  match b with
  | 0#2 => .xint
  | 1#2 => .req
  | 2#2 => .rcv
  | _ => .brk

/-- `len` of `O_S_XFER`: 0 = 8 bits, 1 = 9 bits, 2 = 16 bits (R113). -/
def XferLen.code : XferLen → BitVec 2
  | .bits8 => 0#2
  | .bits9 => 1#2
  | .bits16 => 2#2

/-- `len` read; the block never emits 3 (R113). -/
def xferLenOf (b : BitVec 2) : Option XferLen :=
  match b with
  | 0#2 => some .bits8
  | 1#2 => some .bits9
  | 2#2 => some .bits16
  | _ => none

/-! ### Operand formats, read (R103): reserved bits must be 0 -/

/-- An operand whose reserved bits satisfy `ok`, else `ILL_OPERAND` (R109 item 3). -/
def reservedZero (ok : Bool) (i : Instr) : Except IllCode Instr :=
  if ok then .ok i else .error .operand

/-- A coded operand that must name a value, else `ILL_OPERAND` (R111). -/
def named (o : Option Instr) : Except IllCode Instr :=
  match o with
  | some i => .ok i
  | none => .error .operand

/-- Format `N`: no operand. -/
def fmtN (a : Arg) (i : Instr) : Except IllCode Instr := reservedZero (a == 0#24) i

/-- Format `B`: `byte`. -/
def fmtB (a : Arg) (k : Byte → Instr) : Except IllCode Instr :=
  reservedZero (field a 8 16 == 0#16) (k (field a 0 8))

/-- Format `H`: `half`. -/
def fmtH (a : Arg) (k : BitVec 16 → Instr) : Except IllCode Instr :=
  reservedZero (field a 16 8 == 0#8) (k (field a 0 16))

/-- Format `W9`: `word9`. -/
def fmtW9 (a : Arg) (k : BitVec 9 → Instr) : Except IllCode Instr :=
  reservedZero (field a 9 15 == 0#15) (k (field a 0 9))

/-- Format `R24`: `rate24`, no reserved bit. -/
def fmtR24 (a : Arg) (k : BitVec 24 → Instr) : Except IllCode Instr := .ok (k a)

/-- Format `F1`: `flag`. -/
def fmtF1 (a : Arg) (k : Bool → Instr) : Except IllCode Instr :=
  reservedZero (field a 1 23 == 0#23) (k (flagAt a 0))

/-- Format `F2`: `sel`. -/
def fmtF2 (a : Arg) (k : BitVec 2 → Instr) : Except IllCode Instr :=
  reservedZero (field a 2 22 == 0#22) (k (field a 0 2))

/-- Format `F2` of `U_SETPARITY`, whose `sel` is 0, 1 or 2 (R111). -/
def fmtParity (a : Arg) (k : Parity → Instr) : Except IllCode Instr :=
  if field a 2 22 == 0#22 then named ((parityOf (field a 0 2)).map k) else .error .operand

/-- Format `A`: `addr`, `ten`. -/
def fmtA (a : Arg) (k : Bool → I2cAddr → Instr) : Except IllCode Instr :=
  reservedZero (field a 11 13 == 0#13) (k (flagAt a 10) (field a 0 10))

/-- Format `AS`: `addr`, `ten`, `slave` (and `O_I_START` with `rw` in its place). -/
def fmtAS (a : Arg) (k : Bool → Bool → I2cAddr → Instr) : Except IllCode Instr :=
  reservedZero (field a 12 12 == 0#12) (k (flagAt a 11) (flagAt a 10) (field a 0 10))

/-- Format `AQ`: `addr`, `ten`, `count`. -/
def fmtAQ (a : Arg) (k : Byte → Bool → I2cAddr → Instr) : Except IllCode Instr :=
  reservedZero (field a 11 5 == 0#5) (k (field a 16 8) (flagAt a 10) (field a 0 10))

/-- Format `S`: `rate`, `order`, `mode`. -/
def fmtS (a : Arg) (k : SpiSettings → Instr) : Except IllCode Instr :=
  reservedZero (field a 19 5 == 0#5) (k ⟨field a 0 16, flagAt a 16, field a 17 2⟩)

/-- Format `I`: `src`, `irqmode`. -/
def fmtI (a : Arg) (k : IrqMode → Source → Instr) : Except IllCode Instr :=
  if field a 10 14 == 0#14 then named ((irqModeOf (field a 8 2)).map fun m => k m (field a 0 8))
  else .error .operand

/-- Format `X`: `src`, `val`. -/
def fmtX (a : Arg) (k : Source → Bool → Instr) : Except IllCode Instr :=
  reservedZero (field a 9 15 == 0#15) (k (field a 0 8) (flagAt a 8))

/-- Format `C`: `cause`, `dir`. -/
def fmtC (a : Arg) (k : CtrlCause → Bool → Instr) : Except IllCode Instr :=
  if field a 5 19 == 0#19 then named ((causeOf (field a 0 4)).map fun c => k c (flagAt a 4))
  else .error .operand

/-- The layout of `O_CB` (R113). -/
def fmtCb (a : Arg) (k : CbKind → Byte → Instr) : Except IllCode Instr :=
  reservedZero (field a 16 8 == 0#8 && field a 2 6 == 0#6) (k (cbKindOf (field a 0 2)) (field a 8 8))

/-- The layout of `O_S_XFER` (R113). -/
def fmtXfer (a : Arg) (k : XferLen → BitVec 2 → Bool → BitVec 16 → Instr) : Except IllCode Instr :=
  if field a 21 3 == 0#3 then
    named ((xferLenOf (field a 19 2)).map fun l => k l (field a 17 2) (flagAt a 16) (field a 0 16))
  else .error .operand

/-! ### Decoding -/

/-- Steps 2 to 4 of R112: the row of a `unit` and `op` (R104 to R108, R113) and its fields. A pair with no row is
`ILL_OPCODE` (R109 item 2). -/
def decodeRow (key : BitVec 8) (a : Arg) : Except IllCode Instr :=
  match key with
  | 0x00#8 => fmtN a .sysGetstat
  | 0x01#8 => fmtN a .sysEint
  | 0x02#8 => fmtN a .sysDint
  | 0x03#8 => fmtX a .sysXie
  | 0x04#8 => fmtN a .sysGetxie
  | 0x05#8 => fmtN a .sysIret
  | 0x10#8 => fmtR24 a .uBegin
  | 0x11#8 => fmtN a .uEnd
  | 0x12#8 => fmtB a .uWrite
  | 0x13#8 => fmtN a .uRead
  | 0x14#8 => fmtN a .uPeek
  | 0x15#8 => fmtN a .uAvail
  | 0x16#8 => fmtN a .uFlush
  | 0x17#8 => fmtF1 a .uSet7bit
  | 0x18#8 => fmtF1 a .uSetstop
  | 0x19#8 => fmtParity a .uSetparity
  | 0x1A#8 => fmtN a .uSendbreak
  | 0x1B#8 => fmtN a .uAttachbrk
  | 0x1C#8 => fmtN a .uDetachbrk
  | 0x1D#8 => fmtN a .uCaps
  | 0x1E#8 => fmtN a .uGetstat
  | 0x20#8 => fmtAS a .iBegin
  | 0x21#8 => fmtN a .iEnd
  | 0x22#8 => fmtA a .iBegintx
  | 0x23#8 => fmtB a .iWrite
  | 0x24#8 => fmtN a .iEndtx
  | 0x25#8 => fmtAQ a .iReqfrom
  | 0x26#8 => fmtN a .iRead
  | 0x27#8 => fmtN a .iPeek
  | 0x28#8 => fmtN a .iAvail
  | 0x29#8 => fmtF1 a .iOnreceive
  | 0x2A#8 => fmtF1 a .iOnrequest
  | 0x2B#8 => fmtN a .iGetstat
  | 0x30#8 => fmtN a .sBegin
  | 0x31#8 => fmtN a .sEnd
  | 0x32#8 => fmtS a .sBegintrans
  | 0x33#8 => fmtN a .sEndtrans
  | 0x34#8 => fmtB a .sXfer
  | 0x35#8 => fmtH a .sXfer16
  | 0x36#8 => fmtW9 a .sXfer9
  | 0x37#8 => fmtH a .sSetdiv
  | 0x38#8 => fmtF1 a .sSetorder
  | 0x39#8 => fmtF2 a .sSetmode
  | 0x3A#8 => fmtI a .sUsingint
  | 0x3B#8 => fmtN a .sGetcfg
  | 0x80#8 => fmtN a .evTick
  | 0x81#8 => fmtB a .evXint
  | 0x90#8 => fmtN a .evUTxrdy
  | 0x91#8 => fmtB a .evURxrdy
  | 0x92#8 => fmtN a .evUBreak
  | 0xA0#8 => fmtB a .evIData
  | 0xA1#8 => fmtC a .evICtrl
  | 0xA2#8 => fmtN a .evIAddrack
  | 0xA3#8 => fmtN a .evIStopdone
  | 0xC0#8 => fmtCb a .oCb
  | 0xD0#8 => fmtB a .oUTx
  | 0xE0#8 => fmtAS a .oIStart
  | 0xE1#8 => fmtB a .oITx
  | 0xE2#8 => fmtN a .oIStop
  | 0xE3#8 => fmtN a .oINack
  | 0xF0#8 => fmtXfer a .oSXfer
  | _ => .error .opcode

/-- Step 5 of R112: the value constraints of R111, which depend on how many external sources there are. -/
def constrain (nsrc : Nat) (i : Instr) : Except IllCode Instr :=
  if wellFormed nsrc i then .ok i else .error .operand

/-- Steps 1 to 5 of R112 for a word of any port: total, and a word it rejects it rejects with a code. -/
def decode (nsrc : Nat) (w : Word) : Except IllCode Instr :=
  match decodeRow (keyOf w) (argOf w) with
  | .ok i => constrain nsrc i
  | .error c => .error c

/-- A word on the CMD port: a word of another port is `ILL_PORT` before anything else is looked at (R109). -/
def decodeCmd (nsrc : Nat) (w : Word) : Except IllCode Instr :=
  if 8 ≤ (unitOf w).toNat then .error .port else decode nsrc w

/-- A word on the EVT port: anything but a well-formed event word is dropped (R109, R338). -/
def decodeEvt (nsrc : Nat) (w : Word) : Option Instr :=
  if 8 ≤ (unitOf w).toNat ∧ (unitOf w).toNat ≤ 10 then (decode nsrc w).toOption else none

/-- The instruction the decoder reads from a table word (the host's question): the low `nbits` bits of `w`, every bit
above them 0, with the default `NSRC`. One word, parallel, no byte order (R73, R100; log 2). -/
def decodeTableWord (nbits w : Nat) : Option Instr :=
  (decode Config.nsrcDefault (BitVec.ofNat 32 (w % 2 ^ nbits))).toOption

/-! ### Encoding -/

/-- A word from its key (`unit`, `op`) and its operand (R101). -/
def word (key : BitVec 8) (arg : Arg) : Word := key ++ arg

/-- Format `B` written (R103). -/
def argB (b : Byte) : Arg := 0#16 ++ b
/-- Format `H` written. -/
def argH (h : BitVec 16) : Arg := 0#8 ++ h
/-- Format `W9` written. -/
def argW9 (n : BitVec 9) : Arg := 0#15 ++ n
/-- Format `F1` written. -/
def argF1 (f : Bool) : Arg := 0#23 ++ bit f
/-- Format `F2` written. -/
def argF2 (s : BitVec 2) : Arg := 0#22 ++ s
/-- Format `A` written. -/
def argA (ten : Bool) (addr : I2cAddr) : Arg := 0#13 ++ (bit ten ++ addr)
/-- Format `AS` written (and the layout of `O_I_START`). -/
def argAS (slave ten : Bool) (addr : I2cAddr) : Arg := 0#12 ++ (bit slave ++ (bit ten ++ addr))
/-- Format `AQ` written. -/
def argAQ (count : Byte) (ten : Bool) (addr : I2cAddr) : Arg := count ++ (0#5 ++ (bit ten ++ addr))
/-- Format `S` written. -/
def argS (s : SpiSettings) : Arg := 0#5 ++ (s.mode ++ (bit s.order ++ s.rate))
/-- Format `I` written. -/
def argI (m : IrqMode) (src : Source) : Arg := 0#14 ++ (m.code ++ src)
/-- Format `X` written. -/
def argX (src : Source) (val : Bool) : Arg := 0#15 ++ (bit val ++ src)
/-- Format `C` written. -/
def argC (cause : CtrlCause) (dir : Bool) : Arg := 0#19 ++ (bit dir ++ cause.code)
/-- The layout of `O_CB` written (R113). -/
def argCb (kind : CbKind) (info : Byte) : Arg := 0#8 ++ (info ++ (0#6 ++ kind.code))
/-- The layout of `O_S_XFER` written (R113). -/
def argXfer (len : XferLen) (mode : BitVec 2) (order : Bool) (value : BitVec 16) : Arg :=
  0#3 ++ (len.code ++ (mode ++ (bit order ++ value)))

/-- The word of an instruction (R103 to R108, R113). -/
def encode : Instr → Word
  | .sysGetstat => word 0x00#8 0#24
  | .sysEint => word 0x01#8 0#24
  | .sysDint => word 0x02#8 0#24
  | .sysXie src val => word 0x03#8 (argX src val)
  | .sysGetxie => word 0x04#8 0#24
  | .sysIret => word 0x05#8 0#24
  | .uBegin rate => word 0x10#8 rate
  | .uEnd => word 0x11#8 0#24
  | .uWrite byte => word 0x12#8 (argB byte)
  | .uRead => word 0x13#8 0#24
  | .uPeek => word 0x14#8 0#24
  | .uAvail => word 0x15#8 0#24
  | .uFlush => word 0x16#8 0#24
  | .uSet7bit flag => word 0x17#8 (argF1 flag)
  | .uSetstop flag => word 0x18#8 (argF1 flag)
  | .uSetparity sel => word 0x19#8 (argF2 sel.code)
  | .uSendbreak => word 0x1A#8 0#24
  | .uAttachbrk => word 0x1B#8 0#24
  | .uDetachbrk => word 0x1C#8 0#24
  | .uCaps => word 0x1D#8 0#24
  | .uGetstat => word 0x1E#8 0#24
  | .iBegin slave ten addr => word 0x20#8 (argAS slave ten addr)
  | .iEnd => word 0x21#8 0#24
  | .iBegintx ten addr => word 0x22#8 (argA ten addr)
  | .iWrite byte => word 0x23#8 (argB byte)
  | .iEndtx => word 0x24#8 0#24
  | .iReqfrom count ten addr => word 0x25#8 (argAQ count ten addr)
  | .iRead => word 0x26#8 0#24
  | .iPeek => word 0x27#8 0#24
  | .iAvail => word 0x28#8 0#24
  | .iOnreceive flag => word 0x29#8 (argF1 flag)
  | .iOnrequest flag => word 0x2A#8 (argF1 flag)
  | .iGetstat => word 0x2B#8 0#24
  | .sBegin => word 0x30#8 0#24
  | .sEnd => word 0x31#8 0#24
  | .sBegintrans settings => word 0x32#8 (argS settings)
  | .sEndtrans => word 0x33#8 0#24
  | .sXfer byte => word 0x34#8 (argB byte)
  | .sXfer16 half => word 0x35#8 (argH half)
  | .sXfer9 nine => word 0x36#8 (argW9 nine)
  | .sSetdiv half => word 0x37#8 (argH half)
  | .sSetorder flag => word 0x38#8 (argF1 flag)
  | .sSetmode mode => word 0x39#8 (argF2 mode)
  | .sUsingint irqmode src => word 0x3A#8 (argI irqmode src)
  | .sGetcfg => word 0x3B#8 0#24
  | .evTick => word 0x80#8 0#24
  | .evXint src => word 0x81#8 (argB src)
  | .evUTxrdy => word 0x90#8 0#24
  | .evURxrdy byte => word 0x91#8 (argB byte)
  | .evUBreak => word 0x92#8 0#24
  | .evIData byte => word 0xA0#8 (argB byte)
  | .evICtrl cause dir => word 0xA1#8 (argC cause dir)
  | .evIAddrack => word 0xA2#8 0#24
  | .evIStopdone => word 0xA3#8 0#24
  | .oCb kind info => word 0xC0#8 (argCb kind info)
  | .oUTx byte => word 0xD0#8 (argB byte)
  | .oIStart rw ten addr => word 0xE0#8 (argAS rw ten addr)
  | .oITx byte => word 0xE1#8 (argB byte)
  | .oIStop => word 0xE2#8 0#24
  | .oINack => word 0xE3#8 0#24
  | .oSXfer len mode order value => word 0xF0#8 (argXfer len mode order value)

/-! ### The opcode table -/

/-- The row's `match` in spec/opcode_table.json. -/
def rowMatch : Instr → Word
  | .sysGetstat => 0x00000000#32
  | .sysEint => 0x01000000#32
  | .sysDint => 0x02000000#32
  | .sysXie _ _ => 0x03000000#32
  | .sysGetxie => 0x04000000#32
  | .sysIret => 0x05000000#32
  | .uBegin _ => 0x10000000#32
  | .uEnd => 0x11000000#32
  | .uWrite _ => 0x12000000#32
  | .uRead => 0x13000000#32
  | .uPeek => 0x14000000#32
  | .uAvail => 0x15000000#32
  | .uFlush => 0x16000000#32
  | .uSet7bit _ => 0x17000000#32
  | .uSetstop _ => 0x18000000#32
  | .uSetparity _ => 0x19000000#32
  | .uSendbreak => 0x1A000000#32
  | .uAttachbrk => 0x1B000000#32
  | .uDetachbrk => 0x1C000000#32
  | .uCaps => 0x1D000000#32
  | .uGetstat => 0x1E000000#32
  | .iBegin _ _ _ => 0x20000000#32
  | .iEnd => 0x21000000#32
  | .iBegintx _ _ => 0x22000000#32
  | .iWrite _ => 0x23000000#32
  | .iEndtx => 0x24000000#32
  | .iReqfrom _ _ _ => 0x25000000#32
  | .iRead => 0x26000000#32
  | .iPeek => 0x27000000#32
  | .iAvail => 0x28000000#32
  | .iOnreceive _ => 0x29000000#32
  | .iOnrequest _ => 0x2A000000#32
  | .iGetstat => 0x2B000000#32
  | .sBegin => 0x30000000#32
  | .sEnd => 0x31000000#32
  | .sBegintrans _ => 0x32000000#32
  | .sEndtrans => 0x33000000#32
  | .sXfer _ => 0x34000000#32
  | .sXfer16 _ => 0x35000000#32
  | .sXfer9 _ => 0x36000000#32
  | .sSetdiv _ => 0x37000000#32
  | .sSetorder _ => 0x38000000#32
  | .sSetmode _ => 0x39000000#32
  | .sUsingint _ _ => 0x3A000000#32
  | .sGetcfg => 0x3B000000#32
  | .evTick => 0x80000000#32
  | .evXint _ => 0x81000000#32
  | .evUTxrdy => 0x90000000#32
  | .evURxrdy _ => 0x91000000#32
  | .evUBreak => 0x92000000#32
  | .evIData _ => 0xA0000000#32
  | .evICtrl _ _ => 0xA1000000#32
  | .evIAddrack => 0xA2000000#32
  | .evIStopdone => 0xA3000000#32
  | .oCb _ _ => 0xC0000000#32
  | .oUTx _ => 0xD0000000#32
  | .oIStart _ _ _ => 0xE0000000#32
  | .oITx _ => 0xE1000000#32
  | .oIStop => 0xE2000000#32
  | .oINack => 0xE3000000#32
  | .oSXfer _ _ _ _ => 0xF0000000#32

/-- The row's `mask` in spec/opcode_table.json: `unit`, `op` and the reserved bits (R103). -/
def rowMask : Instr → Word
  | .sysGetstat => 0xFFFFFFFF#32
  | .sysEint => 0xFFFFFFFF#32
  | .sysDint => 0xFFFFFFFF#32
  | .sysXie _ _ => 0xFFFFFE00#32
  | .sysGetxie => 0xFFFFFFFF#32
  | .sysIret => 0xFFFFFFFF#32
  | .uBegin _ => 0xFF000000#32
  | .uEnd => 0xFFFFFFFF#32
  | .uWrite _ => 0xFFFFFF00#32
  | .uRead => 0xFFFFFFFF#32
  | .uPeek => 0xFFFFFFFF#32
  | .uAvail => 0xFFFFFFFF#32
  | .uFlush => 0xFFFFFFFF#32
  | .uSet7bit _ => 0xFFFFFFFE#32
  | .uSetstop _ => 0xFFFFFFFE#32
  | .uSetparity _ => 0xFFFFFFFC#32
  | .uSendbreak => 0xFFFFFFFF#32
  | .uAttachbrk => 0xFFFFFFFF#32
  | .uDetachbrk => 0xFFFFFFFF#32
  | .uCaps => 0xFFFFFFFF#32
  | .uGetstat => 0xFFFFFFFF#32
  | .iBegin _ _ _ => 0xFFFFF000#32
  | .iEnd => 0xFFFFFFFF#32
  | .iBegintx _ _ => 0xFFFFF800#32
  | .iWrite _ => 0xFFFFFF00#32
  | .iEndtx => 0xFFFFFFFF#32
  | .iReqfrom _ _ _ => 0xFF00F800#32
  | .iRead => 0xFFFFFFFF#32
  | .iPeek => 0xFFFFFFFF#32
  | .iAvail => 0xFFFFFFFF#32
  | .iOnreceive _ => 0xFFFFFFFE#32
  | .iOnrequest _ => 0xFFFFFFFE#32
  | .iGetstat => 0xFFFFFFFF#32
  | .sBegin => 0xFFFFFFFF#32
  | .sEnd => 0xFFFFFFFF#32
  | .sBegintrans _ => 0xFFF80000#32
  | .sEndtrans => 0xFFFFFFFF#32
  | .sXfer _ => 0xFFFFFF00#32
  | .sXfer16 _ => 0xFFFF0000#32
  | .sXfer9 _ => 0xFFFFFE00#32
  | .sSetdiv _ => 0xFFFF0000#32
  | .sSetorder _ => 0xFFFFFFFE#32
  | .sSetmode _ => 0xFFFFFFFC#32
  | .sUsingint _ _ => 0xFFFFFC00#32
  | .sGetcfg => 0xFFFFFFFF#32
  | .evTick => 0xFFFFFFFF#32
  | .evXint _ => 0xFFFFFF00#32
  | .evUTxrdy => 0xFFFFFFFF#32
  | .evURxrdy _ => 0xFFFFFF00#32
  | .evUBreak => 0xFFFFFFFF#32
  | .evIData _ => 0xFFFFFF00#32
  | .evICtrl _ _ => 0xFFFFFFE0#32
  | .evIAddrack => 0xFFFFFFFF#32
  | .evIStopdone => 0xFFFFFFFF#32
  | .oCb _ _ => 0xFFFF00FC#32
  | .oUTx _ => 0xFFFFFF00#32
  | .oIStart _ _ _ => 0xFFFFF000#32
  | .oITx _ => 0xFFFFFF00#32
  | .oIStop => 0xFFFFFFFF#32
  | .oINack => 0xFFFFFFFF#32
  | .oSXfer _ _ _ _ => 0xFFE00000#32

/-- The port of a row (R102). -/
def portOf : Instr → Port
  | .sysGetstat => .cmd
  | .sysEint => .cmd
  | .sysDint => .cmd
  | .sysXie _ _ => .cmd
  | .sysGetxie => .cmd
  | .sysIret => .cmd
  | .uBegin _ => .cmd
  | .uEnd => .cmd
  | .uWrite _ => .cmd
  | .uRead => .cmd
  | .uPeek => .cmd
  | .uAvail => .cmd
  | .uFlush => .cmd
  | .uSet7bit _ => .cmd
  | .uSetstop _ => .cmd
  | .uSetparity _ => .cmd
  | .uSendbreak => .cmd
  | .uAttachbrk => .cmd
  | .uDetachbrk => .cmd
  | .uCaps => .cmd
  | .uGetstat => .cmd
  | .iBegin _ _ _ => .cmd
  | .iEnd => .cmd
  | .iBegintx _ _ => .cmd
  | .iWrite _ => .cmd
  | .iEndtx => .cmd
  | .iReqfrom _ _ _ => .cmd
  | .iRead => .cmd
  | .iPeek => .cmd
  | .iAvail => .cmd
  | .iOnreceive _ => .cmd
  | .iOnrequest _ => .cmd
  | .iGetstat => .cmd
  | .sBegin => .cmd
  | .sEnd => .cmd
  | .sBegintrans _ => .cmd
  | .sEndtrans => .cmd
  | .sXfer _ => .cmd
  | .sXfer16 _ => .cmd
  | .sXfer9 _ => .cmd
  | .sSetdiv _ => .cmd
  | .sSetorder _ => .cmd
  | .sSetmode _ => .cmd
  | .sUsingint _ _ => .cmd
  | .sGetcfg => .cmd
  | .evTick => .evt
  | .evXint _ => .evt
  | .evUTxrdy => .evt
  | .evURxrdy _ => .evt
  | .evUBreak => .evt
  | .evIData _ => .evt
  | .evICtrl _ _ => .evt
  | .evIAddrack => .evt
  | .evIStopdone => .evt
  | .oCb _ _ => .out
  | .oUTx _ => .out
  | .oIStart _ _ _ => .out
  | .oITx _ => .out
  | .oIStop => .out
  | .oINack => .out
  | .oSXfer _ _ _ _ => .out

end Sys2Proof
end

