-- ==== Sys2Proof/Machine/State.lean ====
section
/-! DEFINITION. The state of the block (R20 to R41), its reset value (R361), and the reasons a step can stop.
Plain data; grouped by unit as spec/10_state.md groups it. -/

namespace Sys2Proof.Machine

/-! ### Why a step stops -/

/-- What was asked for and holds no value (R14). -/
inductive Unset where
  /-- A ring slot that nothing has written (R26). -/
  | slot
  /-- A component of `s_cfg` that `S_GETCFG` or an `O_S_XFER` word would show (R47, R362, R378). -/
  | spiCfg
deriving DecidableEq, Repr

/-- The faults. Each is safe: the model stops where the spec gives no value or no rule executes the primitive. -/
inductive Fault where
  /-- Raised by a command that would show a field holding no value in its response or its output event (R14, U3). Safe:
  "a model treats reaching it as a fault". -/
  | noValue (what : Unset)
  /-- Raised by `push` on a full ring, which no rule executes (R136, U1). Safe. -/
  | pushFull
  /-- Raised by `pop` and `front` on an empty ring, which no rule executes (R137, R138, U1). Safe. -/
  | popEmpty
  /-- Raised by an access to an index outside `0 .. N-1`, a place that does not exist (R70, R72). Safe. -/
  | noSuchSlot
deriving DecidableEq, Repr

/-- The refusals of the model itself (a refusal of the block, `ILL_REFUSED`, is a response and so a next state). -/
inductive Refusal where
  /-- Raised by `exec` for an instruction that has no meaning yet. Safe. No arm of this model raises it. -/
  | notModelled (mnemonic : String)
deriving DecidableEq, Repr

/-- The outcome of a step or a meaning of this machine. -/
abbrev Out (σ : Type) := Host.Outcome σ Fault Refusal

/-! ### Fields that may hold no value -/

/-- A field that reset leaves without a value (R14): its bits, and whether a rule has given them a value since.
While `known` is false no rule shows the bits; a rule that copies the field copies bits and mark (log 6). -/
structure Field (α : Type) where
  val   : α
  known : Bool
deriving DecidableEq, Repr

/-- A field holding `a`. -/
abbrev Field.holds {α : Type} (a : α) : Field α := ⟨a, true⟩

/-- A field holding no value. DESIGN CHOICE (log 6): its bits are `a`; at reset `a` is a free value of Config. -/
abbrev Field.noValue {α : Type} (a : α) : Field α := ⟨a, false⟩

/-- The value of a field, if it holds one. -/
def Field.get? {α : Type} (f : Field α) : Option α := if f.known then some f.val else none

/-! ### Ring storage -/

/-- The storage of one ring: (index, byte) cells, indices strictly rising. An index not listed holds no value. -/
abbrev Memory := List Host.Cell

/-- What an index nothing has written reads as: no value (R26, R361; log 7). -/
def Memory.unlisted : Option Byte := none

/-- The canonical form: indices strictly rising (no cell can equal what an unlisted index reads as, since that is no
byte). -/
def Memory.wf : Memory → Bool
  | [] => true
  | [_] => true
  | a :: b :: rest => decide (a.1 < b.1) && Memory.wf (b :: rest)

/-- A ring: backing storage, next write index, next read index (R26, R130). Its modulus is a parameter. -/
structure Ring where
  buf  : Memory
  head : Nat
  tail : Nat
deriving DecidableEq, Repr

/-- The four data spaces (R12, R70). -/
inductive Space where
  | utx | urx | itx | irx
deriving DecidableEq, Repr

/-! ### System unit (R21 to R25) -/

/-- The kind of a frame (R24). -/
inductive FrameKind where
  | fg
  | xisr (src : Source)
  | cbReq
  | cbRcv
  | cbBrk
deriving DecidableEq, Repr

/-- Which I2C master operation is waiting (R24, R213). -/
inductive MasterOp where
  | tx | rx
deriving DecidableEq, Repr

/-- The wait of a frame (R24, R52). -/
inductive Wait where
  | none
  | uWrite (b : Byte)
  | uFlush
  | iAddr (k : MasterOp)
  | iDone (k : MasterOp)
  | iStop (k : MasterOp)
  | sBegin2 (settings : SpiSettings)
deriving DecidableEq, Repr

/-- A frame of `ctx` (R24). -/
structure Frame where
  kind : FrameKind
  wait : Wait
deriving DecidableEq, Repr

/-- `ctx`: a non-empty stack, top frame first (R24). DEDUCED (log 15): non-empty by construction. -/
structure Ctx where
  top   : Frame
  below : List Frame
deriving DecidableEq, Repr

/-- All frames, top first. -/
def Ctx.frames (c : Ctx) : List Frame := c.top :: c.below

/-- `depth = length(ctx) - 1` (R24). -/
def Ctx.depth (c : Ctx) : Nat := c.below.length

/-- The system fields (R21 to R24). -/
structure System where
  gie   : Bool
  xie   : BitVec 32
  nowMs : BitVec 32
  ctx   : Ctx
deriving DecidableEq, Repr

/-! ### UART engine (R27 to R33) -/

structure Uart where
  utx    : Ring
  urx    : Ring
  held   : Bool
  rxie   : Bool
  txie   : Bool
  div    : Field (BitVec 32)
  txreg  : Field Byte
  bits7  : Bool
  stop2  : Bool
  parity : Parity
  cbBrk  : Bool
deriving DecidableEq, Repr

/-! ### I2C state machine (R34 to R38) -/

/-- `i_mode`: 0 MASTER, 1 SLAVE (R35). -/
inductive I2cMode where
  | master | slave
deriving DecidableEq, Repr

/-- `i_role`; codes 5 to 7 are never held (R36). -/
inductive Role where
  | idle | masterTx | masterRx | slaveTx | slaveRx
deriving DecidableEq, Repr

/-- `i_err` (R36, R322). -/
inductive I2cErr where
  | none | addrNack | dataNack | busBusy
deriving DecidableEq, Repr

/-- `i_phase`; code 3 is never held (R36). -/
inductive Phase where
  | none | addr | data
deriving DecidableEq, Repr

structure I2c where
  itx       : Ring
  irx       : Ring
  en        : Bool
  mode      : I2cMode
  own       : I2cAddr
  own10     : Bool
  savedMode : Field I2cMode
  role      : Role
  err       : I2cErr
  target    : I2cAddr
  target10  : Bool
  phase     : Phase
  expect    : BitVec 8
  got       : BitVec 8
  stp       : Bool
  t0        : BitVec 32
  cbReq     : Bool
  cbRcv     : Bool
deriving DecidableEq, Repr

/-! ### SPI unit (R39 to R41) -/

/-- A configuration register of R40; each component may hold no value on its own (R271). -/
structure SpiReg where
  div   : Field (BitVec 16)
  order : Field Bool
  mode  : Field (BitVec 2)
deriving DecidableEq, Repr

structure Spi where
  en        : Bool
  lock      : Bool
  cfg       : SpiReg
  saved     : SpiReg
  irqMode   : IrqMode
  irqSrc    : Source
  masked    : Bool
  maskedSrc : Source
deriving DecidableEq, Repr

/-! ### Ports -/

/-- One answer on the RSP port (R100, R110). -/
structure Answer where
  ill : Bool
  val : Word
deriving DecidableEq, Repr

/-- What the block has put out: `trace` (R25), and the model's record of the RSP port and of EVT_ILL (log 10). -/
structure Outputs where
  trace   : List Word
  answers : List Answer
  evtIll  : Bool
deriving DecidableEq, Repr

/-- The environment as plain data (log 1): the presentations it is still to make, how many free choices it has made
since, and the MISO signal of this step (log 9). -/
structure Environment where
  script  : List Stimulus
  choices : Nat
  miso    : BitVec 16
deriving DecidableEq, Repr

/-- The state of the block, with the model's own `out` records, `env` and fixed `params`. -/
structure State where
  sys    : System
  uart   : Uart
  i2c    : I2c
  spi    : Spi
  out    : Outputs
  env    : Environment
  params : Params
deriving DecidableEq, Repr

/-! ### Reset (R360, R361) -/

/-- A ring at reset: indices 0, no slot with a value (R26, R361). -/
def Ring.reset : Ring := ⟨[], 0, 0⟩

/-- `[(FG, W_NONE)]` (R24). -/
def Ctx.reset : Ctx := ⟨⟨.fg, .none⟩, []⟩

def System.reset : System where
  gie := false
  xie := 0#32
  nowMs := 0#32
  ctx := Ctx.reset

/-- Every field at its value of R361; `div` and `txreg` hold none, their bits are free (log 6). -/
def Uart.reset : Uart where
  utx := Ring.reset
  urx := Ring.reset
  held := true
  rxie := false
  txie := false
  div := .noValue Config.uartDivAtReset
  txreg := .noValue Config.txregAtReset
  bits7 := false
  stop2 := false
  parity := .none
  cbBrk := false

/-- The bits of `i_saved_mode` at reset: free (R362; log 6). -/
def I2cMode.savedAtReset : I2cMode := if Config.slaveSavedAtReset then .slave else .master

/-- Every field at its value of R361; `savedMode` holds none, its bits are free (log 6). -/
def I2c.reset : I2c where
  itx := Ring.reset
  irx := Ring.reset
  en := false
  mode := .master
  own := 0#10
  own10 := false
  savedMode := .noValue I2cMode.savedAtReset
  role := .idle
  err := .none
  target := 0#10
  target10 := false
  phase := .none
  expect := 0#8
  got := 0#8
  stp := false
  t0 := 0#32
  cbReq := false
  cbRcv := false

/-- A configuration register that holds no value; its bits are `c` (R361; log 6). -/
def SpiReg.noValue (c : SpiCfg) : SpiReg := ⟨.noValue c.div, .noValue c.order, .noValue c.mode⟩

def Spi.reset : Spi where
  en := false
  lock := false
  cfg := SpiReg.noValue Config.spiCfgAtReset
  saved := SpiReg.noValue Config.spiSavedAtReset
  irqMode := .none
  irqSrc := 0#8
  masked := false
  maskedSrc := 0#8

def Outputs.reset : Outputs := ⟨[], [], false⟩

/-- No presentation placed (log 1), MISO low (log 9). -/
def Environment.reset : Environment := ⟨[], 0, 0#16⟩

/-- The state of R361 in a block with parameters `p`. -/
def State.initial (p : Params) : State where
  sys := System.reset
  uart := Uart.reset
  i2c := I2c.reset
  spi := Spi.reset
  out := Outputs.reset
  env := Environment.reset
  params := p

/-- The machine right after reset, with the spec's default parameters (R7, R8, R361). -/
def State.reset : State := State.initial Params.default

end Sys2Proof.Machine
end

