-- ==== Sys2Proof/Machine/Ring.lean ====
section
/-! DEFINITION. Ring storage and the ring primitives of spec/40_ring_index.md, once for all four rings. Indices are
natural numbers and the arithmetic is on unbounded naturals (R11). -/

namespace Sys2Proof.Machine

/-! ### One byte of storage -/

/-- What the storage holds at an index; no value where nothing has written it. -/
def Memory.at? : Memory → Nat → Option Byte
  | [], _ => Memory.unlisted
  | (a, v) :: rest, i => if a = i then some v else Memory.at? rest i

/-- The storage with byte `v` at index `i`, in canonical form. -/
def Memory.set : Memory → Nat → Byte → Memory
  | [], i, v => [(i, v)]
  | (a, w) :: rest, i, v =>
    if i < a then (i, v) :: (a, w) :: rest
    else if i = a then (i, v) :: rest
    else (a, w) :: Memory.set rest i v

/-- `MemRead(space, idx, 1)` in a space of `n` elements (R12, R71). A slot that holds no value is a `fault` of U3 (R14); no
rule reads one (R143). -/
def memRead (n : Nat) (m : Memory) (i : Nat) : Except Fault Byte :=
  if i < n then
    match m.at? i with
    | some v => .ok v
    | none => .error (.noValue .slot)
  else .error .noSuchSlot

/-- `MemWrite(space, idx, 1, v)` in a space of `n` elements (R12, R71). -/
def memWrite (n : Nat) (m : Memory) (i : Nat) (v : Byte) : Except Fault Memory :=
  if i < n then .ok (m.set i v) else .error .noSuchSlot

/-! ### Index arithmetic -/

/-- `inc_N(i) = (i + 1) mod N` (R131). -/
def inc (n i : Nat) : Nat := (i + 1) % n

/-- `empty(r)` (R132). -/
def Ring.empty (r : Ring) : Bool := r.head == r.tail

/-- `full(r)`, the one-slot-reserved convention (R133, R147, C1). -/
def Ring.full (n : Nat) (r : Ring) : Bool := inc n r.head == r.tail

/-- `count(r) = (N + head - tail) mod N` (R134). -/
def Ring.count (n : Nat) (r : Ring) : Nat := (n + r.head - r.tail) % n

/-- `space(r) = N - 1 - count(r)` (R135). -/
def Ring.space (n : Nat) (r : Ring) : Nat := n - 1 - r.count n

/-! ### Push, pop, front, clear -/

/-- `push(r, b)`: store the byte at `head`, then advance `head` (R136, R151). -/
def Ring.push (n : Nat) (r : Ring) (b : Byte) : Except Fault Ring :=
  if r.full n then .error .pushFull
  else
    match memWrite n r.buf r.head b with
    | .ok m => .ok { r with buf := m, head := inc n r.head }
    | .error f => .error f

/-- `front(r)`: the oldest byte (R138). -/
def Ring.front (n : Nat) (r : Ring) : Except Fault Byte :=
  if r.empty then .error .popEmpty else memRead n r.buf r.tail

/-- `pop(r)`: read the byte at `tail`, then advance `tail`; the slot keeps its byte (R137, R151). -/
def Ring.pop (n : Nat) (r : Ring) : Except Fault (Byte × Ring) :=
  match r.front n with
  | .ok v => .ok (v, { r with tail := inc n r.tail })
  | .error f => .error f

/-- `clear(r)`: both indices 0, the storage untouched (R139). -/
def Ring.clear (r : Ring) : Ring := { r with head := 0, tail := 0 }

/-- The write of the I2C terminator: into the slot `head` names, `head` not advanced (R228, D30). -/
def Ring.mark (n : Nat) (r : Ring) (v : Byte) : Except Fault Ring :=
  match memWrite n r.buf r.head v with
  | .ok m => .ok { r with buf := m }
  | .error f => .error f

/-- The slot of the `k`-th oldest byte. -/
def Ring.slot (n : Nat) (r : Ring) (k : Nat) : Nat := (r.tail + k) % n

/-- `contents(r)` (R143): what the slots from `tail` up to `head` hold, oldest first. -/
def Ring.contents (n : Nat) (r : Ring) : List (Option Byte) :=
  (List.range (r.count n)).map fun k => r.buf.at? (r.slot n k)

end Sys2Proof.Machine
end

