-- ==== Sys2Proof/Machine/Ops.lean ====
section
/-! DEFINITION. The operations the rules share: ring access by space, responses, output events, waits, the entry to and
return from interrupt context, the external interrupt enables, reset. -/

namespace Sys2Proof.Machine

/-- Goes on with a value, or stops with the fault. -/
def orFault {α : Type} (x : Except Fault α) (k : α → Out State) : Out State :=
  match x with
  | .ok a => k a
  | .error f => .fault f

/-! ### The four spaces (R12, R70) -/

/-- The modulus of a space (R7). -/
def State.modulus (s : State) : Space → Nat
  | .utx => s.params.nUtx
  | .urx => s.params.nUrx
  | .itx => s.params.nItx
  | .irx => s.params.nIrx

/-- The ring of a space (R27, R34). -/
def State.ring (s : State) : Space → Ring
  | .utx => s.uart.utx
  | .urx => s.uart.urx
  | .itx => s.i2c.itx
  | .irx => s.i2c.irx

/-- The state with another ring in a space. -/
def State.setRing (s : State) (sp : Space) (r : Ring) : State :=
  match sp with
  | .utx => { s with uart := { s.uart with utx := r } }
  | .urx => { s with uart := { s.uart with urx := r } }
  | .itx => { s with i2c := { s.i2c with itx := r } }
  | .irx => { s with i2c := { s.i2c with irx := r } }

/-- What one element of a space holds: the model's read of one byte. -/
def State.slotAt (s : State) (sp : Space) (i : Nat) : Option Byte := (s.ring sp).buf.at? i

/-- `empty` of a space's ring (R132). -/
def State.emptyAt (s : State) (sp : Space) : Bool := (s.ring sp).empty

/-- `full` of a space's ring (R133). -/
def State.fullAt (s : State) (sp : Space) : Bool := (s.ring sp).full (s.modulus sp)

/-- `count` of a space's ring (R134). -/
def State.countAt (s : State) (sp : Space) : Nat := (s.ring sp).count (s.modulus sp)

/-- `push` on a space's ring (R136). -/
def pushTo (sp : Space) (b : Byte) (s : State) : Except Fault State :=
  match (s.ring sp).push (s.modulus sp) b with
  | .ok r => .ok (s.setRing sp r)
  | .error f => .error f

/-- `pop` on a space's ring (R137). -/
def popFrom (sp : Space) (s : State) : Except Fault (Byte × State) :=
  match (s.ring sp).pop (s.modulus sp) with
  | .ok (v, r) => .ok (v, s.setRing sp r)
  | .error f => .error f

/-- `front` of a space's ring (R138). -/
def frontOf (sp : Space) (s : State) : Except Fault Byte := (s.ring sp).front (s.modulus sp)

/-- `clear` of a space's ring (R139). -/
def clearRing (sp : Space) (s : State) : State := s.setRing sp (s.ring sp).clear

/-- The terminator write into a space (R228). -/
def markHead (sp : Space) (v : Byte) (s : State) : Except Fault State :=
  match (s.ring sp).mark (s.modulus sp) v with
  | .ok r => .ok (s.setRing sp r)
  | .error f => .error f

/-! ### Responses and output events (R13, R110, R113, R320) -/

/-- `respond v` (R13, R110). -/
def respond (v : Word) (s : State) : State :=
  { s with out := { s.out with answers := s.out.answers ++ [⟨false, v⟩] } }

/-- `raise Illegal(code)`: a response, no other change (R320). -/
def raiseIllegal (c : IllCode) (s : State) : State :=
  { s with out := { s.out with answers := s.out.answers ++ [⟨true, c.code⟩] } }

/-- `emit E`: the output event's word is appended to `trace` and presented on OUT (R13, R113). -/
def emit (e : Instr) (s : State) : State :=
  { s with out := { s.out with trace := s.out.trace ++ [encode e] } }

/-! ### Waits (R13, R307) -/

/-- Writes the top frame's `wait`. -/
def setWait (w : Wait) (s : State) : State :=
  { s with sys := { s.sys with ctx := { s.sys.ctx with top := { s.sys.ctx.top with wait := w } } } }

/-- `hold W`: the command is not complete (R13). -/
def hold (w : Wait) (s : State) : State := setWait w s

/-- `CMD_READY`: the top frame waits for nothing (R100, R307). -/
def State.cmdReady (s : State) : Bool := s.sys.ctx.top.wait == .none

/-- A command word accepted when `CMD_READY = 1`; otherwise it is not accepted and nothing happens (R100, R307;
log 3). -/
def command (s : State) (body : Out State) : Out State := if s.cmdReady then body else .next s

/-- An event word accepted when it is deliverable; otherwise it is not accepted and nothing happens (R325, R338;
log 3). -/
def event (deliverable : Bool) (s : State) (body : Out State) : Out State :=
  if deliverable then body else .next s

/-! ### Interrupt context: entry and return (R306, R308, R329, R330) -/

/-- "open window K" (R308). -/
def openWindow (k : FrameKind) (s : State) : State :=
  { s with sys := { s.sys with gie := false, ctx := ⟨⟨k, .none⟩, s.sys.ctx.top :: s.sys.ctx.below⟩ } }

/-- Entry to interrupt context with a window: `O_CB` is emitted, the interrupted context is kept below the new frame,
`gie` is cleared (R329). -/
def enterWindow (cb : CbKind) (info : Byte) (k : FrameKind) (s : State) : State :=
  openWindow k (emit (.oCb cb info) s)

/-- The state with its top frame popped and interrupts enabled (R306, R330). -/
def popFrame (below : Frame) (rest : List Frame) (s : State) : State :=
  { s with sys := { s.sys with gie := true, ctx := ⟨below, rest⟩ } }

/-- The post-action of a window: leaving `CB_REQ` with an empty `itx` signals NACK (R229, R330). -/
def windowPost (k : FrameKind) (s : State) : State :=
  match k with
  | .cbReq => if s.emptyAt .itx then emit .oINack s else s
  | .fg => s
  | .xisr _ => s
  | .cbRcv => s
  | .cbBrk => s

/-- Return from interrupt context (R306, R330): nothing in foreground. -/
def leaveWindow (s : State) : Option State :=
  match s.sys.ctx.below with
  | [] => none
  | f :: rest => some (windowPost s.sys.ctx.top.kind (popFrame f rest s))

/-! ### The interrupt enables (R21, R22) -/

/-- Writes `gie`. -/
def setGie (b : Bool) (s : State) : State := { s with sys := { s.sys with gie := b } }

/-- The bit of one source. -/
def sourceBit (src : Source) : BitVec 32 := 1#32 <<< src.toNat

/-- `xie[src]` (R22). -/
def State.xieAt (s : State) (src : Source) : Bool := s.sys.xie.getLsbD src.toNat

/-- `xie[src] <- val` (R22). -/
def setXie (src : Source) (val : Bool) (s : State) : State :=
  { s with sys := { s.sys with xie := if val then s.sys.xie ||| sourceBit src else s.sys.xie &&& ~~~(sourceBit src) } }

/-! ### Reset (R360) -/

/-- The reset step: every field of the block at its reset value. The parameters are not state, and the environment is
outside the block (R50, R360; log 12). -/
def resetStep (s : State) : State := { State.initial s.params with env := s.env }

end Sys2Proof.Machine
end

