-- ==== Sys2Proof/Machine/Operands.lean ====
section
/-! DEFINITION. Values the rules read and compute beside the stored fields: response values, the received value of an SPI
transfer, the SPI wire order, the elapsed time of an address phase, the length of a request. -/

namespace Sys2Proof.Machine

/-- `NODATA`, the "no data" answer of `read` and `peek` (R8, R110, D21). -/
def noData : Word := 0xFFFFFFFF#32

/-- The answer 0: also that of a command whose source operation returns nothing (R110). -/
def answerZero : Word := 0#32

/-- The answer 1: one byte written, or success. -/
def answerOne : Word := 1#32

/-- `zext_32` (R11). -/
def zext {n : Nat} (v : BitVec n) : Word := v.setWidth 32

/-- A count as a 32-bit answer. -/
def countWord (n : Nat) : Word := BitVec.ofNat 32 n

/-- A count as an 8-bit field; every count fits (R44, R144). -/
def countByte (n : Nat) : Byte := BitVec.ofNat 8 n

/-- `draw n`: the low `n` bits of the MISO signal of this step (R268). The signal is an input: nothing constrains it. -/
def draw (n : Nat) (s : State) : BitVec n := s.env.miso.setWidth n

/-- `wire_n(order, v)`: the bits of a transfer in the order they go over the wire (R266, R73). -/
def wire {n : Nat} (msbFirst : Bool) (v : BitVec n) : List Bool :=
  (List.range n).map fun i => v.getLsbD (if msbFirst then n - 1 - i else i)

/-- A received bit sequence put back into natural numeric order: the `i`-th received bit goes where the `i`-th sent
bit came from (R266). -/
def unwire (n : Nat) (msbFirst : Bool) (bits : List Bool) : BitVec n :=
  if msbFirst then (BitVec.ofBoolListBE bits).setWidth n else (BitVec.ofBoolListLE bits).setWidth n

/-- `elapsed = (now_ms - i_t0) mod 2^32` (R214, R334). -/
def State.elapsed (s : State) : BitVec 32 := s.sys.nowMs - s.i2c.t0

/-- The address-phase deadline: `elapsed >= I2C_ADDR_TIMEOUT_MS` (R214, R334). -/
def State.addrExpired (s : State) : Bool := s.params.addrTimeout.toNat ≤ s.elapsed.toNat

/-- `min(count, N_IRX - 1)`: how many bytes a request expects (R206). -/
def State.requestLength (s : State) (count : Byte) : Byte := countByte (min count.toNat (s.params.nIrx - 1))

/-- The settings of `S_BEGINTRANS` as a configuration: the divider is `spi_div(rate)` (R263, D13). -/
def settingsReg (set : SpiSettings) : SpiReg :=
  ⟨.holds (Config.spiDiv set.rate), .holds set.order, .holds set.mode⟩

/-- A configuration record as a register that holds it. -/
def cfgReg (c : SpiCfg) : SpiReg := ⟨.holds c.div, .holds c.order, .holds c.mode⟩

end Sys2Proof.Machine
end

