-- ==== Sys2Proof/Machine/Flags.lean ====
section
/-! DEFINITION. The flags and status words: numeric codes of the stored names (R36, R41), the predicates that gate a step
(R200, R325), and the read-only status words (R42 to R47). -/

namespace Sys2Proof.Machine

/-! ### Numeric codes -/

/-- `i_mode` (R35). -/
def I2cMode.code : I2cMode → BitVec 1
  | .master => 0#1
  | .slave => 1#1

/-- `i_role` (R36). -/
def Role.code : Role → BitVec 3
  | .idle => 0#3
  | .masterTx => 1#3
  | .masterRx => 2#3
  | .slaveTx => 3#3
  | .slaveRx => 4#3

/-- `i_err` (R36, R322). -/
def I2cErr.code : I2cErr → BitVec 2
  | .none => 0#2
  | .addrNack => 1#2
  | .dataNack => 2#2
  | .busBusy => 3#2

/-- `i_phase` (R36). -/
def Phase.code : Phase → BitVec 2
  | .none => 0#2
  | .addr => 1#2
  | .data => 2#2

/-! ### Predicates that gate a step -/

/-- `i_busy`: a master operation is in progress (R200). -/
def State.i2cBusy (s : State) : Bool := s.i2c.phase != .none

/-- `EV_U_TXRDY` is deliverable (R178, R325). -/
def State.txReady (s : State) : Bool := s.sys.gie && s.uart.txie && !s.uart.held

/-- `EV_U_RXRDY` and `EV_U_BREAK` are deliverable (R179, R180, R325). -/
def State.rxReady (s : State) : Bool := s.sys.gie && s.uart.rxie && !s.uart.held

/-- `EV_I_DATA` and `EV_I_CTRL` are deliverable (R217, R222, R325). -/
def State.i2cReady (s : State) : Bool := s.sys.gie && s.i2c.en

/-- `EV_XINT src` is deliverable (R310, R325). -/
def State.xintReady (s : State) (src : Source) : Bool := s.sys.gie && s.xieAt src

/-- `EV_I_ADDRACK` is deliverable: a polled flag, no enable is read (R226). -/
def State.ackReady (s : State) : Bool := s.i2c.phase == .addr

/-- `EV_I_STOPDONE` is deliverable: a polled flag, no enable is read (R227). -/
def State.stopReady (s : State) : Bool := s.i2c.stp

/-! ### Status words -/

/-- The top frame is not the foreground (R42). -/
def State.inWindow (s : State) : Bool := s.sys.ctx.top.kind != .fg

/-- The `SYS_GETSTAT` word (R42). -/
def State.sysStatus (s : State) : Word :=
  0#15 ++ (bit s.inWindow ++ (BitVec.ofNat 8 (min s.sys.ctx.depth 255) ++ (0#7 ++ bit s.sys.gie)))

/-- The bits of the sources that exist. -/
def State.sourceMask (s : State) : BitVec 32 := BitVec.ofNat 32 (2 ^ s.params.nsrc - 1)

/-- The `SYS_GETXIE` word (R43). -/
def State.xieStatus (s : State) : Word := s.sys.xie &&& s.sourceMask

/-- The `U_GETSTAT` word (R44). -/
def State.uartStatus (s : State) : Word :=
  0#8 ++ (countByte (s.countAt .urx) ++ (countByte (s.countAt .utx) ++ (bit s.uart.cbBrk ++ (s.uart.parity.code ++
    (bit s.uart.stop2 ++ (bit s.uart.bits7 ++ (bit s.uart.txie ++ (bit s.uart.rxie ++ bit s.uart.held))))))))

/-- The `U_CAPS` word: 7-bit mode, stop bits, parity and the break callback, but no break transmission (R45). -/
def uartCaps : Word := 0x00000017#32

/-- The `I_GETSTAT` word (R46). -/
def State.i2cStatus (s : State) : Word :=
  s.i2c.expect ++ (s.i2c.got ++ (0#4 ++ (bit s.i2c.cbRcv ++ (bit s.i2c.cbReq ++ (bit s.i2c.en ++
    (s.i2c.mode.code ++ (bit s.i2c.stp ++ (s.i2c.phase.code ++ (s.i2c.err.code ++ s.i2c.role.code)))))))))

/-- The `S_GETCFG` word for configuration values `div`, `order`, `mode` (R47). -/
def State.spiStatus (s : State) (div : BitVec 16) (order : Bool) (mode : BitVec 2) : Word :=
  0#8 ++ (s.spi.irqMode.code ++ (bit s.spi.masked ++ (bit s.spi.en ++ (bit s.spi.lock ++ (mode ++
    (bit order ++ div))))))

end Sys2Proof.Machine
end

