-- ==== Sys2Proof/Machine/Sys.lean ====
section
/-! DEFINITION. The system unit: commands and events of spec/44_sys_context.md. -/

namespace Sys2Proof.Machine

/-- A refusal of the block: `raise Illegal(ILL_REFUSED)` (R114, R321). -/
def refuse (s : State) : Out State := .next (raiseIllegal .refused s)

/-- `SYS_GETSTAT` (R301). -/
def execSysGetstat (s : State) : Out State := command s (.next (respond s.sysStatus s))

/-- `SYS_EINT` (R302). -/
def execSysEint (s : State) : Out State := command s (.next (respond answerZero (setGie true s)))

/-- `SYS_DINT` (R303). -/
def execSysDint (s : State) : Out State := command s (.next (respond answerZero (setGie false s)))

/-- `SYS_XIE` (R304). -/
def execSysXie (src : Source) (val : Bool) (s : State) : Out State :=
  command s (.next (respond answerZero (setXie src val s)))

/-- `SYS_GETXIE` (R305). -/
def execSysGetxie (s : State) : Out State := command s (.next (respond s.xieStatus s))

/-- `SYS_IRET` (R306, R330): refused in foreground. -/
def execSysIret (s : State) : Out State :=
  command s (match leaveWindow s with
    | some t => .next (respond answerZero t)
    | none => refuse s)

/-- `EV_TICK` (R309): always deliverable. -/
def execEvTick (s : State) : Out State := .next { s with sys := { s.sys with nowMs := s.sys.nowMs + 1#32 } }

/-- `EV_XINT` (R310). -/
def execEvXint (src : Source) (s : State) : Out State :=
  event (s.xintReady src) s (.next (enterWindow .xint src (.xisr src) s))

end Sys2Proof.Machine
end

