-- ==== Sys2Proof/Machine/Uart.lean ====
section
/-! DEFINITION. The serial ring-buffer engine: commands, waits and events of spec/41_uart_ring_engine.md. -/

namespace Sys2Proof.Machine

/-- Takes the oldest byte of a ring and answers it; `NODATA` when the ring is empty (R164, R207). -/
def readFrom (sp : Space) (s : State) : Out State :=
  if s.emptyAt sp then .next (respond noData s)
  else orFault (popFrom sp s) fun (v, t) => .next (respond (zext v) t)

/-- Answers the oldest byte of a ring and keeps it; `NODATA` when the ring is empty (R165, R208). -/
def peekAt (sp : Space) (s : State) : Out State :=
  if s.emptyAt sp then .next (respond noData s)
  else orFault (frontOf sp s) fun v => .next (respond (zext v) s)

/-- Both UART rings emptied. -/
def clearUart (s : State) : State := clearRing .urx (clearRing .utx s)

/-- `U_BEGIN` (R161). -/
def execUBegin (rate : BitVec 24) (s : State) : Out State :=
  let t := clearUart s
  command s (.next (respond answerZero { t with uart := { t.uart with
    div := .holds (Config.uartDiv rate), held := false, rxie := true, txie := false } }))

/-- `U_END` (R162): the engine's own enables, not `gie` (C8). -/
def execUEnd (s : State) : Out State :=
  let t := clearUart s
  command s (.next (respond answerZero { t with uart := { t.uart with
    rxie := false, txie := false, held := true, cbBrk := false } }))

/-- A byte into `utx`, the transmit interrupt enabled (R163, R175). -/
def queueTx (b : Byte) (s : State) : Except Fault State :=
  match pushTo .utx b s with
  | .ok t => .ok { t with uart := { t.uart with txie := true } }
  | .error f => .error f

/-- `U_WRITE` (R163): the two "unsafe to wait" conditions are tested only here and only on a full ring (R369). -/
def execUWrite (byte : Byte) (s : State) : Out State :=
  command s (
    if !s.fullAt .utx then orFault (queueTx byte s) fun t => .next (respond answerOne t)
    else if s.uart.held || !s.sys.gie then .next (respond answerZero s)
    else .next (hold (.uWrite byte) s))

/-- `U_READ` (R164). -/
def execURead (s : State) : Out State := command s (readFrom .urx s)

/-- `U_PEEK` (R165). -/
def execUPeek (s : State) : Out State := command s (peekAt .urx s)

/-- `U_AVAIL` (R166). -/
def execUAvail (s : State) : Out State := command s (.next (respond (countWord (s.countAt .urx)) s))

/-- `U_FLUSH` (R167). -/
def execUFlush (s : State) : Out State :=
  command s (if s.emptyAt .utx then .next (respond answerZero s) else .next (hold .uFlush s))

/-- `U_SET7BIT` (R168): recorded, no byte changes. -/
def execUSet7bit (flag : Bool) (s : State) : Out State :=
  command s (.next (respond answerZero { s with uart := { s.uart with bits7 := flag } }))

/-- `U_SETSTOP` (R169): recorded, no byte changes. -/
def execUSetstop (flag : Bool) (s : State) : Out State :=
  command s (.next (respond answerZero { s with uart := { s.uart with stop2 := flag } }))

/-- `U_SETPARITY` (R170): recorded, no byte changes. -/
def execUSetparity (sel : Parity) (s : State) : Out State :=
  command s (.next (respond answerZero { s with uart := { s.uart with parity := sel } }))

/-- `U_SENDBREAK` (R171): this block has no break transmission (R45). -/
def execUSendbreak (s : State) : Out State := command s (.next (respond answerZero s))

/-- `U_ATTACHBRK` (R172). -/
def execUAttachbrk (s : State) : Out State :=
  command s (.next (respond answerZero { s with uart := { s.uart with cbBrk := true } }))

/-- `U_DETACHBRK` (R173). -/
def execUDetachbrk (s : State) : Out State :=
  command s (.next (respond answerZero { s with uart := { s.uart with cbBrk := false } }))

/-- `U_CAPS` (R174). -/
def execUCaps (s : State) : Out State := command s (.next (respond uartCaps s))

/-- `U_GETSTAT` (R177). -/
def execUGetstat (s : State) : Out State := command s (.next (respond s.uartStatus s))

/-! ### Waits -/

/-- Resolution of `W_U_WRITE(b)`: enabled when `utx` is not full; `u_held` and `gie` are not read again (R175).
DESIGN CHOICE (log 23): so a `U_END` from a window, which clears the ring under the held command, frees a slot and the
command answers 1 with its byte queued, as R175 ("by a `clear(utx)` executed in a window") and R335 say; R368 and R369 say
that such a hold hangs, which it does where `utx` is full or no resolution is taken (R311). -/
def resolveUWrite (b : Byte) (s : State) : Out State :=
  if s.fullAt .utx then .next s
  else orFault (queueTx b s) fun t => .next (respond answerOne (setWait .none t))

/-- Resolution of `W_U_FLUSH`: enabled when `utx` is empty (R176). -/
def resolveUFlush (s : State) : Out State :=
  if s.emptyAt .utx then .next (respond answerZero (setWait .none s)) else .next s

/-! ### Events -/

/-- The UART transmit register receives a byte, announced by `O_U_TX` (R31, R178). -/
def transmit (v : Byte) (s : State) : State :=
  emit (.oUTx v) { s with uart := { s.uart with txreg := .holds v } }

/-- `EV_U_TXRDY` (R178). -/
def execEvUTxrdy (s : State) : Out State :=
  event s.txReady s (
    if s.emptyAt .utx then .next { s with uart := { s.uart with txie := false } }
    else orFault (popFrom .utx s) fun (v, t) => .next (transmit v t))

/-- `EV_U_RXRDY` (R179): a byte that finds `urx` full is dropped without a trace (R324). -/
def execEvURxrdy (byte : Byte) (s : State) : Out State :=
  event s.rxReady s (
    if s.fullAt .urx then .next s
    else orFault (pushTo .urx byte s) .next)

/-- `EV_U_BREAK` (R180). -/
def execEvUBreak (s : State) : Out State :=
  event s.rxReady s (if s.uart.cbBrk then .next (enterWindow .brk 0x00#8 .cbBrk s) else .next s)

end Sys2Proof.Machine
end

