-- ==== Sys2Proof/Machine/I2c.lean ====
section
/-! DEFINITION. The I2C master and slave state machine: commands, waits and events of spec/42_i2c_state_machine.md. -/

namespace Sys2Proof.Machine

/-- Writes `i_role`. -/
def setRole (r : Role) (s : State) : State := { s with i2c := { s.i2c with role := r } }

/-- Writes `i_err`. -/
def setErr (e : I2cErr) (s : State) : State := { s with i2c := { s.i2c with err := e } }

/-- Both I2C rings emptied. -/
def clearI2c (s : State) : State := clearRing .irx (clearRing .itx s)

/-- "role and error are reset" and the target is written: the start of `I_BEGINTX` and `I_REQFROM` (R203, R206). -/
def newTarget (ten : Bool) (addr : I2cAddr) (s : State) : State :=
  { s with i2c := { s.i2c with role := .idle, err := .none, target := addr, target10 := ten } }

/-- The command step of a master operation: the mode is saved, the block is master, START is issued, the command waits
for the address phase (R205, R206, R213). -/
def startMaster (k : MasterOp) (role : Role) (rw : Bool) (s : State) : State :=
  hold (.iAddr k) (emit (.oIStart rw s.i2c.target10 s.i2c.target)
    { s with i2c := { s.i2c with
      savedMode := .holds s.i2c.mode, mode := .master, role := role, phase := .addr, t0 := s.sys.nowMs } })

/-- The block asserts or pre-arms a STOP (R37, R218, R219, R226). -/
def issueStop (s : State) : State := emit .oIStop { s with i2c := { s.i2c with stp := true } }

/-! ### Commands -/

/-- `I_BEGIN` (R201). -/
def execIBegin (slave ten : Bool) (addr : I2cAddr) (s : State) : Out State :=
  let t := clearI2c s
  command s (
    if s.i2cBusy then refuse s
    else .next (respond answerZero { t with i2c := { t.i2c with
      role := .idle, err := .none, stp := false, expect := 0#8, got := 0#8,
      mode := if slave then .slave else .master, own := addr, own10 := ten, en := true } }))

/-- `I_END` (R202). -/
def execIEnd (s : State) : Out State :=
  let t := clearI2c s
  command s (
    if s.i2cBusy then refuse s
    else .next (respond answerZero { t with i2c := { t.i2c with
      en := false, role := .idle, err := .none, stp := false } }))

/-- `I_BEGINTX` (R203). -/
def execIBegintx (ten : Bool) (addr : I2cAddr) (s : State) : Out State :=
  command s (
    if s.i2cBusy then refuse s
    else .next (respond answerZero (clearRing .itx (newTarget ten addr s))))

/-- `I_WRITE` (R204): never holds. -/
def execIWrite (byte : Byte) (s : State) : Out State :=
  command s (
    if s.fullAt .itx then .next (respond answerZero s)
    else orFault (pushTo .itx byte s) fun t => .next (respond answerOne t))

/-- `I_ENDTX` (R205): `i_err` is not reset here (R382). -/
def execIEndtx (s : State) : Out State :=
  command s (
    if !s.i2c.en || s.i2cBusy then refuse s
    else .next (startMaster .tx .masterTx false s))

/-- `I_REQFROM` (R206): a request for no byte does nothing on the bus. -/
def execIReqfrom (count : Byte) (ten : Bool) (addr : I2cAddr) (s : State) : Out State :=
  let t := clearRing .irx (newTarget ten addr s)
  let u : State := { t with i2c := { t.i2c with expect := s.requestLength count, got := 0#8 } }
  command s (
    if !s.i2c.en || s.i2cBusy then refuse s
    else if s.requestLength count = 0#8 then .next (respond answerZero u)
    else .next (startMaster .rx .masterRx true u))

/-- `I_READ` (R207). -/
def execIRead (s : State) : Out State := command s (readFrom .irx s)

/-- `I_PEEK` (R208). -/
def execIPeek (s : State) : Out State := command s (peekAt .irx s)

/-- `I_AVAIL` (R209). -/
def execIAvail (s : State) : Out State := command s (.next (respond (countWord (s.countAt .irx)) s))

/-- `I_ONRECEIVE` (R210). -/
def execIOnreceive (flag : Bool) (s : State) : Out State :=
  command s (.next (respond answerZero { s with i2c := { s.i2c with cbRcv := flag } }))

/-- `I_ONREQUEST` (R211). -/
def execIOnrequest (flag : Bool) (s : State) : Out State :=
  command s (.next (respond answerZero { s with i2c := { s.i2c with cbReq := flag } }))

/-- `I_GETSTAT` (R212). -/
def execIGetstat (s : State) : Out State := command s (.next (respond s.i2cStatus s))

/-! ### Waits of a master operation (R213) -/

/-- Resolution of `W_I_ADDR(k)`: error, acknowledgment and deadline, in that order (R214). -/
def resolveIAddr (k : MasterOp) (s : State) : Out State :=
  if s.i2c.err ≠ .none then .next (setWait (.iStop k) s)
  else if s.i2c.phase = .data then .next (setWait (.iDone k) s)
  else if s.addrExpired then .next (setWait (.iStop k) (setRole .idle (setErr .addrNack s)))
  else .next s

/-- Resolution of `W_I_DONE(k)`: the role is back to `IDLE`, or an error is set (R215). -/
def resolveIDone (k : MasterOp) (s : State) : Out State :=
  if s.i2c.role = .idle ∨ s.i2c.err ≠ .none then .next (setWait (.iStop k) s) else .next s

/-- The answer of a master operation: success, or the bytes received, and 0 on any error (R216, R230). -/
def masterAnswer (k : MasterOp) (s : State) : Word :=
  if s.i2c.err = .none then
    match k with
    | .tx => answerOne
    | .rx => zext s.i2c.got
  else answerZero

/-- Resolution of `W_I_STOP(k)`: enabled when no STOP is outstanding; the mode is restored on every path, whether or not
the saved mode holds a value (R216; log 19). -/
def resolveIStop (k : MasterOp) (s : State) : Out State :=
  if s.i2c.stp then .next s
  else .next (respond (masterAnswer k s) (setWait .none
    { s with i2c := { s.i2c with mode := s.i2c.savedMode.val, phase := .none, role := .idle } }))

/-! ### The data-ready event -/

/-- `EV_I_DATA` in `MASTER_TX` (R218). -/
def dataMasterTx (s : State) : Out State :=
  if s.emptyAt .itx then .next (setRole .idle (issueStop s))
  else orFault (popFrom .itx s) fun (v, t) => .next (emit (.oITx v) t)

/-- What `MASTER_RX` does once the byte is stored: counts it, ends at the expected count, pre-arms STOP one byte before
(R219). -/
def countRx (s : State) : State :=
  let got := s.i2c.got + 1#8
  let t : State := { s with i2c := { s.i2c with got := got } }
  if got = s.i2c.expect then setRole .idle t
  else if got.toNat + 1 = s.i2c.expect.toNat then issueStop t
  else t

/-- `EV_I_DATA` in `MASTER_RX` (R219). -/
def dataMasterRx (byte : Byte) (s : State) : Out State :=
  if s.fullAt .irx then .next (countRx s)
  else orFault (pushTo .irx byte s) fun t => .next (countRx t)

/-- `EV_I_DATA` in `SLAVE_TX` (R220). -/
def dataSlaveTx (s : State) : Out State :=
  if s.emptyAt .itx then .next (emit .oINack s)
  else orFault (popFrom .itx s) fun (v, t) => .next (emit (.oITx v) t)

/-- `EV_I_DATA` in `SLAVE_RX`: a byte that does not fit is answered with NACK (R221). -/
def dataSlaveRx (byte : Byte) (s : State) : Out State :=
  if s.fullAt .irx then .next (emit .oINack s)
  else orFault (pushTo .irx byte s) .next

/-- `EV_I_DATA` (R217): the role decides how the event is read; `IDLE` ignores it. -/
def execEvIData (byte : Byte) (s : State) : Out State :=
  event s.i2cReady s (match s.i2c.role with
    | .idle => .next s
    | .masterTx => dataMasterTx s
    | .masterRx => dataMasterRx byte s
    | .slaveTx => dataSlaveTx s
    | .slaveRx => dataSlaveRx byte s)

/-! ### The control event -/

/-- Arbitration lost (R223): in every role. -/
def ctrlArbLost (s : State) : Out State := .next (setErr .busBusy (setRole .idle s))

/-- NACK received (R224): classified by the phase (C3). -/
def ctrlNack (s : State) : Out State :=
  if s.i2c.role = .idle then .next s
  else .next (setRole .idle (setErr (if s.i2c.phase = .addr then .addrNack else .dataNack) s))

/-- START detected (R225): in slave context only. -/
def ctrlStart (dir : Bool) (s : State) : Out State :=
  if s.i2c.mode = .slave then
    if dir then
      let t := clearRing .itx (setRole .slaveTx s)
      if s.i2c.cbReq then .next (enterWindow .req 0x00#8 .cbReq t) else .next (emit .oINack t)
    else .next (clearRing .irx (setRole .slaveRx s))
  else .next s

/-- The end of a slave reception, once the terminator is placed: role `IDLE`, and the on-receive callback with the byte
count if one is registered (R228). -/
def endReception (n : Nat) (s : State) : State :=
  let t := setRole .idle s
  if s.i2c.cbRcv then enterWindow .rcv (countByte n) .cbRcv t else t

/-- STOP detected (R228): the terminator goes into the slot `irx.head` names, if there is room, and is not counted. -/
def ctrlStop (s : State) : Out State :=
  match s.i2c.role with
  | .slaveRx =>
    if s.fullAt .irx then .next (endReception (s.countAt .irx) s)
    else orFault (markHead .irx s.params.terminator s) fun t => .next (endReception (s.countAt .irx) t)
  | .slaveTx => .next (setRole .idle s)
  | .idle => .next s
  | .masterTx => .next s
  | .masterRx => .next s

/-- `EV_I_CTRL` (R222): one cause per event. -/
def execEvICtrl (cause : CtrlCause) (dir : Bool) (s : State) : Out State :=
  event s.i2cReady s (match cause with
    | .al => ctrlArbLost s
    | .nack => ctrlNack s
    | .start => ctrlStart dir s
    | .stop => ctrlStop s)

/-! ### The polled flags -/

/-- `EV_I_ADDRACK` (R226): a request for one byte pre-arms STOP in this step. -/
def execEvIAddrack (s : State) : Out State :=
  let t : State := { s with i2c := { s.i2c with phase := .data } }
  event s.ackReady s (
    if s.i2c.role = .masterRx ∧ s.i2c.expect = 1#8 then .next (issueStop t) else .next t)

/-- `EV_I_STOPDONE` (R227). -/
def execEvIStopdone (s : State) : Out State :=
  event s.stopReady s (.next { s with i2c := { s.i2c with stp := false } })

end Sys2Proof.Machine
end

