-- ==== Sys2Proof/Machine/Spi.lean ====
section
/-! DEFINITION. The SPI transaction lock, the interrupt masking around a transaction and the transfers:
spec/43_spi_lock_transfer.md. -/

namespace Sys2Proof.Machine

/-- Writes `s_cfg`. -/
def setCfg (c : SpiReg) (s : State) : State := { s with spi := { s.spi with cfg := c } }

/-- `S_BEGIN` (R261): the lock and the masks are not touched. -/
def execSBegin (s : State) : Out State :=
  command s (.next (respond answerZero (setCfg (cfgReg s.params.spiDefault) { s with spi := { s.spi with en := true } })))

/-- `S_END` (R265). -/
def execSEnd (s : State) : Out State :=
  command s (.next (respond answerZero { s with spi := { s.spi with en := false } }))

/-! ### The transaction lock -/

/-- "optionally masks one specific external interrupt source": the one configured, remembered for the unmasking
(R262, D10). -/
def maskSource (s : State) : State :=
  match s.spi.irqMode with
  | .one =>
    let t := setXie s.spi.irqSrc false s
    { t with spi := { t.spi with masked := true, maskedSrc := s.spi.irqSrc } }
  | .none => s
  | .all => s

/-- `gie` after a granted lock: enabled, unless "mask all" is active (R262). -/
def gieGranted (s : State) : Bool := s.spi.irqMode != .all

/-- `S_BEGINTRANS` phase 1 (R262): the test-and-set; it never waits for the lock. -/
def execSBegintrans (settings : SpiSettings) (s : State) : Out State :=
  command s (
    if s.spi.lock then .next (respond answerZero (setGie true s))
    else .next (hold (.sBegin2 settings)
      (setGie (gieGranted s) (maskSource { s with spi := { s.spi with lock := true } }))))

/-- `S_BEGINTRANS` phase 2, the resolution of `W_S_BEGIN2`: save, then apply, in one step (R263). -/
def resolveSBegin2 (settings : SpiSettings) (s : State) : Out State :=
  .next (respond answerOne (setWait .none
    { s with spi := { s.spi with saved := s.spi.cfg, cfg := settingsReg settings } }))

/-- "unmasks the previously masked interrupt source (if any)" (R264). -/
def unmaskSource (s : State) : State :=
  if s.spi.masked then
    let t := setXie s.spi.maskedSrc true s
    { t with spi := { t.spi with masked := false } }
  else s

/-- `S_ENDTRANS` (R264): refused when no transaction is open. -/
def execSEndtrans (s : State) : Out State :=
  let t := unmaskSource { s with spi := { s.spi with lock := false } }
  command s (
    if !s.spi.lock then refuse s
    else .next (respond answerZero (setGie true (setCfg s.spi.saved t))))

/-- `S_USINGINT` (R274): takes effect at the next `S_BEGINTRANS`. -/
def execSUsingint (irqmode : IrqMode) (src : Source) (s : State) : Out State :=
  command s (.next (respond answerZero { s with spi := { s.spi with irqMode := irqmode, irqSrc := src } }))

/-! ### Transfers -/

/-- One full-duplex shift: announced by `O_S_XFER`, answered with the value received (R267, R269, R270). While `order` or
`mode` hold no value the transfer "has no meaning" (R378) and "a model treats reaching it as a fault" (R14, U3). -/
def spiTransfer (len : XferLen) (value : BitVec 16) (received : Word) (s : State) : Out State :=
  if !s.spi.en then refuse s
  else
    match s.spi.cfg.order.get?, s.spi.cfg.mode.get? with
    | some order, some mode => .next (respond received (emit (.oSXfer len mode order value) s))
    | _, _ => .fault (.noValue .spiCfg)

/-- `S_XFER` (R267). -/
def execSXfer (byte : Byte) (s : State) : Out State :=
  command s (spiTransfer .bits8 (byte.setWidth 16) (zext (draw 8 s)) s)

/-- `S_XFER16` (R269). -/
def execSXfer16 (half : BitVec 16) (s : State) : Out State :=
  command s (spiTransfer .bits16 half (zext (draw 16 s)) s)

/-- `S_XFER9` (R270). -/
def execSXfer9 (nine : BitVec 9) (s : State) : Out State :=
  command s (spiTransfer .bits9 (nine.setWidth 16) (zext (draw 9 s)) s)

/-! ### Direct reconfiguration: the lock and `s_en` are not read (D14) -/

/-- `S_SETDIV` (R271): only `div` receives a value. -/
def execSSetdiv (half : BitVec 16) (s : State) : Out State :=
  command s (.next (respond answerZero (setCfg { s.spi.cfg with div := .holds half } s)))

/-- `S_SETORDER` (R272). -/
def execSSetorder (flag : Bool) (s : State) : Out State :=
  command s (.next (respond answerZero (setCfg { s.spi.cfg with order := .holds flag } s)))

/-- `S_SETMODE` (R273). -/
def execSSetmode (mode : BitVec 2) (s : State) : Out State :=
  command s (.next (respond answerZero (setCfg { s.spi.cfg with mode := .holds mode } s)))

/-- `S_GETCFG` (R275): while a component of `s_cfg` holds no value "the command has no meaning" (R47, R275) and "a
model treats reaching it as a fault" (R14, U3). -/
def execSGetcfg (s : State) : Out State :=
  command s (match s.spi.cfg.div.get?, s.spi.cfg.order.get?, s.spi.cfg.mode.get? with
    | some div, some order, some mode => .next (respond (s.spiStatus div order mode) s)
    | _, _, _ => .fault (.noValue .spiCfg))

end Sys2Proof.Machine
end

