-- ==== Sys2Proof/Machine/Output.lean ====
section
/-! DEFINITION. The output rows (R113). The block encodes these words and never decodes them: the meaning of a row is its
emission, "appends E to trace and presents its word on OUT", which other meanings perform through `emit`. No input runs
one on its own: on CMD the word is `ILL_PORT`, on EVT it is dropped (R109; log 11). -/

namespace Sys2Proof.Machine

/-- `O_CB`: application code is to run in interrupt context. -/
def execOCb (kind : CbKind) (info : Byte) (s : State) : Out State := .next (emit (.oCb kind info) s)

/-- `O_U_TX`: a byte was pushed to the UART transmit register. -/
def execOUTx (byte : Byte) (s : State) : Out State := .next (emit (.oUTx byte) s)

/-- `O_I_START`: the block issued a START as master. -/
def execOIStart (rw ten : Bool) (addr : I2cAddr) (s : State) : Out State := .next (emit (.oIStart rw ten addr) s)

/-- `O_I_TX`: a byte was pushed to the I2C transmit register. -/
def execOITx (byte : Byte) (s : State) : Out State := .next (emit (.oITx byte) s)

/-- `O_I_STOP`: the block asserted or pre-armed a STOP. -/
def execOIStop (s : State) : Out State := .next (emit .oIStop s)

/-- `O_I_NACK`: the block, as slave, signalled NACK. -/
def execOINack (s : State) : Out State := .next (emit .oINack s)

/-- `O_S_XFER`: one full-duplex shift. -/
def execOSXfer (len : XferLen) (mode : BitVec 2) (order : Bool) (value : BitVec 16) (s : State) : Out State :=
  .next (emit (.oSXfer len mode order value) s)

end Sys2Proof.Machine
end

