-- ==== Sys2Proof/Machine/Dispatch.lean ====
section
/-! DEFINITION. The meaning of every instruction: one arm per row of spec/opcode_table.json, one call of a meaning each. -/

namespace Sys2Proof.Machine

def exec (i : Instr) (s : State) : Host.Outcome State Fault Refusal :=
  match i with
  | .sysGetstat => Sys2Proof.Machine.execSysGetstat s
  | .sysEint => Sys2Proof.Machine.execSysEint s
  | .sysDint => Sys2Proof.Machine.execSysDint s
  | .sysXie src val => Sys2Proof.Machine.execSysXie src val s
  | .sysGetxie => Sys2Proof.Machine.execSysGetxie s
  | .sysIret => Sys2Proof.Machine.execSysIret s
  | .uBegin rate => Sys2Proof.Machine.execUBegin rate s
  | .uEnd => Sys2Proof.Machine.execUEnd s
  | .uWrite byte => Sys2Proof.Machine.execUWrite byte s
  | .uRead => Sys2Proof.Machine.execURead s
  | .uPeek => Sys2Proof.Machine.execUPeek s
  | .uAvail => Sys2Proof.Machine.execUAvail s
  | .uFlush => Sys2Proof.Machine.execUFlush s
  | .uSet7bit flag => Sys2Proof.Machine.execUSet7bit flag s
  | .uSetstop flag => Sys2Proof.Machine.execUSetstop flag s
  | .uSetparity sel => Sys2Proof.Machine.execUSetparity sel s
  | .uSendbreak => Sys2Proof.Machine.execUSendbreak s
  | .uAttachbrk => Sys2Proof.Machine.execUAttachbrk s
  | .uDetachbrk => Sys2Proof.Machine.execUDetachbrk s
  | .uCaps => Sys2Proof.Machine.execUCaps s
  | .uGetstat => Sys2Proof.Machine.execUGetstat s
  | .iBegin slave ten addr => Sys2Proof.Machine.execIBegin slave ten addr s
  | .iEnd => Sys2Proof.Machine.execIEnd s
  | .iBegintx ten addr => Sys2Proof.Machine.execIBegintx ten addr s
  | .iWrite byte => Sys2Proof.Machine.execIWrite byte s
  | .iEndtx => Sys2Proof.Machine.execIEndtx s
  | .iReqfrom count ten addr => Sys2Proof.Machine.execIReqfrom count ten addr s
  | .iRead => Sys2Proof.Machine.execIRead s
  | .iPeek => Sys2Proof.Machine.execIPeek s
  | .iAvail => Sys2Proof.Machine.execIAvail s
  | .iOnreceive flag => Sys2Proof.Machine.execIOnreceive flag s
  | .iOnrequest flag => Sys2Proof.Machine.execIOnrequest flag s
  | .iGetstat => Sys2Proof.Machine.execIGetstat s
  | .sBegin => Sys2Proof.Machine.execSBegin s
  | .sEnd => Sys2Proof.Machine.execSEnd s
  | .sBegintrans settings => Sys2Proof.Machine.execSBegintrans settings s
  | .sEndtrans => Sys2Proof.Machine.execSEndtrans s
  | .sXfer byte => Sys2Proof.Machine.execSXfer byte s
  | .sXfer16 half => Sys2Proof.Machine.execSXfer16 half s
  | .sXfer9 nine => Sys2Proof.Machine.execSXfer9 nine s
  | .sSetdiv half => Sys2Proof.Machine.execSSetdiv half s
  | .sSetorder flag => Sys2Proof.Machine.execSSetorder flag s
  | .sSetmode mode => Sys2Proof.Machine.execSSetmode mode s
  | .sUsingint irqmode src => Sys2Proof.Machine.execSUsingint irqmode src s
  | .sGetcfg => Sys2Proof.Machine.execSGetcfg s
  | .evTick => Sys2Proof.Machine.execEvTick s
  | .evXint src => Sys2Proof.Machine.execEvXint src s
  | .evUTxrdy => Sys2Proof.Machine.execEvUTxrdy s
  | .evURxrdy byte => Sys2Proof.Machine.execEvURxrdy byte s
  | .evUBreak => Sys2Proof.Machine.execEvUBreak s
  | .evIData byte => Sys2Proof.Machine.execEvIData byte s
  | .evICtrl cause dir => Sys2Proof.Machine.execEvICtrl cause dir s
  | .evIAddrack => Sys2Proof.Machine.execEvIAddrack s
  | .evIStopdone => Sys2Proof.Machine.execEvIStopdone s
  | .oCb kind info => Sys2Proof.Machine.execOCb kind info s
  | .oUTx byte => Sys2Proof.Machine.execOUTx byte s
  | .oIStart rw ten addr => Sys2Proof.Machine.execOIStart rw ten addr s
  | .oITx byte => Sys2Proof.Machine.execOITx byte s
  | .oIStop => Sys2Proof.Machine.execOIStop s
  | .oINack => Sys2Proof.Machine.execOINack s
  | .oSXfer len mode order value => Sys2Proof.Machine.execOSXfer len mode order value s

end Sys2Proof.Machine
end

