-- ==== Sys2Proof/Machine/Fetch.lean ====
section
/-! DEFINITION. What reaches the block in a step: wait resolution by the top frame, presentations at the ports, and where
the next presentation comes from (R10, R100, R307, R311, R338). -/

namespace Sys2Proof.Machine

/-- The wait-resolution step of the top frame; where it is not enabled, nothing happens (R311 item 2). -/
def resolveTop (s : State) : Out State :=
  match s.sys.ctx.top.wait with
  | .none => .next s
  | .uWrite b => resolveUWrite b s
  | .uFlush => resolveUFlush s
  | .iAddr k => resolveIAddr k s
  | .iDone k => resolveIDone k s
  | .iStop k => resolveIStop k s
  | .sBegin2 set => resolveSBegin2 set s

/-- What a presentation comes to: an instruction to run, or an outcome without one. -/
inductive Fetched where
  | run (i : Instr) (s : State)
  | settled (o : Out State)

/-- A word on the CMD port: not accepted while the top frame waits; an illegal word is answered with its code (R109,
R112, R307, R320). -/
def presentCmd (w : Word) (s : State) : Fetched :=
  match decodeCmd s.params.nsrc w with
  | .ok i => .run i s
  | .error c => .settled (command s (.next (raiseIllegal c s)))

/-- A word on the EVT port: a malformed one is dropped and EVT_ILL pulses (R338). -/
def presentEvt (w : Word) (s : State) : Fetched :=
  match decodeEvt s.params.nsrc w with
  | some i => .run i s
  | none => .settled (.next { s with out := { s.out with evtIll := true } })

/-- The EVT_ILL pulse of an earlier step is over. -/
def endPulse (s : State) : State := { s with out := { s.out with evtIll := false } }

/-- One presentation at the ports. -/
def present (st : Stimulus) (s : State) : Fetched :=
  let t := endPulse s
  match st with
  | .rst => .settled (.next (resetStep t))
  | .cmd w m => presentCmd w { t with env := { t.env with miso := m } }
  | .evt w => presentEvt w t
  | .resolve => .settled (resolveTop t)

/-- The next presentation: the script's first, or the environment's free choice when the script is used up (log 1). -/
def nextStimulus (s : State) : Stimulus × State :=
  match s.env.script with
  | st :: rest => (st, { s with env := { s.env with script := rest } })
  | [] => (Config.environment s.env.choices, { s with env := { s.env with choices := s.env.choices + 1 } })

/-- The next presentation, made. -/
def fetch (s : State) : Fetched := present (nextStimulus s).1 (nextStimulus s).2

/-- How a table word is presented (log 2): an event word on EVT, every other word on CMD, where an output word is
answered with `ILL_PORT` (R102, R109). -/
def presentationOf (nbits w : Nat) (miso : BitVec 16) : Stimulus :=
  let v : Word := BitVec.ofNat 32 (w % 2 ^ nbits)
  if 8 ≤ (unitOf v).toNat ∧ (unitOf v).toNat ≤ 11 then .evt v else .cmd v miso

end Sys2Proof.Machine
end

