-- ==== Sys2Proof/Machine/Step.lean ====
section
/-! DEFINITION. One step of the machine: the next presentation, and the instruction it decodes to, run (R10, R311). -/

namespace Sys2Proof.Machine

/-- One step: `next`, a fault or a refusal. -/
def step (s : State) : Host.Outcome State Fault Refusal :=
  match fetch s with
  | .run i t => exec i t
  | .settled o => o

/-- The state whose very next step runs the instruction of a table word: the word is presented first (log 2). -/
def State.withFetchWord (s : State) (nbits w : Nat) : State :=
  { s with env := { s.env with script := presentationOf nbits w s.env.miso :: s.env.script } }

end Sys2Proof.Machine
end

