-- ==== Sys2Proof/Safety.lean ====
section
/-! DEFINITION. What a safe state and a safe run are, in the terms the statements use: the invariants of R49, R142, R143,
R182 and R231, ring contents under rotation (R145), sequences of pushes and pops (R143), and runs over a script (R311). -/

namespace Sys2Proof.Machine

/-! ### Rings -/

/-- A ring of modulus `n` as it is in every reachable state: both indices in range (R142), the storage canonical and
inside the space (R70), and every slot of `contents` written (R143). -/
abbrev Ring.Ok (n : Nat) (r : Ring) : Prop :=
  r.head < n ∧ r.tail < n ∧ r.buf.wf = true ∧ (∀ c ∈ r.buf, c.1 < n)
    ∧ ∀ k < r.count n, (r.buf.at? (r.slot n k)).isSome = true

/-- `rot_k` (R145): both indices moved by `k`, and every byte moved from slot `i` to slot `i + k mod N`. -/
def Ring.Rotated (n k : Nat) (r r' : Ring) : Prop :=
  r'.head = (r.head + k) % n ∧ r'.tail = (r.tail + k) % n
    ∧ ∀ i < n, r'.buf.at? ((i + k) % n) = r.buf.at? i

/-- A sequence of pushes, the first byte first (R143). -/
def Ring.pushAll (n : Nat) : Ring → List Byte → Except Fault Ring
  | r, [] => .ok r
  | r, b :: bs =>
    match r.push n b with
    | .ok r' => Ring.pushAll n r' bs
    | .error f => .error f

/-- `k` pops: the bytes they return, in order, and the ring they leave (R143). -/
def Ring.popAll (n : Nat) : Ring → Nat → Except Fault (List Byte × Ring)
  | r, 0 => .ok ([], r)
  | r, k + 1 =>
    match r.pop n with
    | .ok (v, r') =>
      match Ring.popAll n r' k with
      | .ok (vs, r'') => .ok (v :: vs, r'')
      | .error f => .error f
    | .error f => .error f

/-! ### Waits of a master operation -/

/-- The waits `W_I_ADDR`, `W_I_DONE` and `W_I_STOP` (R49 item 7, R213). -/
def Wait.isMaster : Wait → Bool
  | .iAddr _ => true
  | .iDone _ => true
  | .iStop _ => true
  | .none => false
  | .uWrite _ => false
  | .uFlush => false
  | .sBegin2 _ => false

/-- How many frames wait inside a master operation. -/
def State.masterWaits (s : State) : Nat := (s.sys.ctx.frames.filter fun f => f.wait.isMaster).length

/-! ### The invariant, part by part -/

/-- The four rings (R49 item 1, R142, R143). -/
abbrev State.RingsOk (s : State) : Prop :=
  s.uart.utx.Ok s.params.nUtx ∧ s.uart.urx.Ok s.params.nUrx ∧ s.i2c.itx.Ok s.params.nItx ∧ s.i2c.irx.Ok s.params.nIrx

/-- A frame kind names a source that exists (R22, R310). -/
def FrameKind.fits (nsrc : Nat) : FrameKind → Bool
  | .xisr src => sourceFits nsrc src
  | .fg => true
  | .cbReq => true
  | .cbRcv => true
  | .cbBrk => true

/-- The stack of frames (R49 item 3): the bottom frame is the foreground and no other frame is. -/
abbrev State.CtxOk (s : State) : Prop :=
  (s.sys.ctx.frames.getLast?.map Frame.kind) = some .fg
    ∧ (∀ f ∈ s.sys.ctx.frames.dropLast, f.kind ≠ .fg)
    ∧ ∀ f ∈ s.sys.ctx.frames, f.kind.fits s.params.nsrc = true

/-- The external sources: no enable of a source that does not exist, and the sources the SPI unit remembers exist
(R22, R49 item 6, R111). -/
abbrev State.SourcesOk (s : State) : Prop :=
  s.xieStatus = s.sys.xie
    ∧ (s.spi.irqMode = .one → s.spi.irqSrc.toNat < s.params.nsrc)
    ∧ (s.spi.masked = true → s.spi.maskedSrc.toNat < s.params.nsrc)

/-- The phase of a master operation (R49 item 7, R213): it is set exactly while one frame, and only one, waits inside a
master operation; meanwhile the block is in master mode and knows the mode to restore. -/
abbrev State.PhaseOk (s : State) : Prop :=
  s.masterWaits = (if s.i2c.phase = .none then 0 else 1)
    ∧ (s.i2c.phase ≠ .none → s.i2c.mode = .master ∧ s.i2c.savedMode.known = true)

/-- The role (R231, R232): a master role only inside a master operation, a slave role only in slave mode and outside
one. -/
abbrev State.RoleOk (s : State) : Prop :=
  (s.i2c.role = .masterTx ∨ s.i2c.role = .masterRx → s.i2c.phase ≠ .none)
    ∧ (s.i2c.role = .slaveTx ∨ s.i2c.role = .slaveRx → s.i2c.phase = .none ∧ s.i2c.mode = .slave)

/-- The count of a master reception (R206, R219): bytes are still expected, no more than fit, and every byte in `irx` was
received by this operation. -/
abbrev State.RequestOk (s : State) : Prop :=
  s.i2c.role = .masterRx → s.i2c.got.toNat < s.i2c.expect.toNat
    ∧ s.i2c.expect.toNat ≤ s.params.nIrx - 1 ∧ s.countAt .irx ≤ s.i2c.got.toNat

/-- Life of `u_txie` (R182): with the transmit interrupt disabled `utx` is empty. -/
abbrev State.TxieOk (s : State) : Prop := s.uart.txie = false → s.emptyAt .utx = true

/-- The invariant of the block (R49, R142, R143, R182, R231). -/
abbrev State.Inv (s : State) : Prop :=
  s.params.wf ∧ s.RingsOk ∧ s.CtxOk ∧ s.SourcesOk ∧ s.PhaseOk ∧ s.RoleOk ∧ s.RequestOk ∧ s.TxieOk

/-! ### Safe steps -/

/-- What a safe step comes to: a next state, or the one fault software can reach, a command that would show the SPI
configuration while it holds no value (R14, R378, U3). -/
def SafeOutcome (o : Out State) : Prop := (∃ t, o = .next t) ∨ o = .fault (.noValue .spiCfg)

/-- The presentation a step is about to make. -/
def State.nextIn (s : State) : Stimulus := (nextStimulus s).1

/-- The presentation of this step is a CMD word that decodes to `i`, and the block accepts it. -/
abbrev State.accepts (s : State) (i : Instr) : Prop :=
  match s.nextIn with
  | .cmd w _ => decodeCmd s.params.nsrc w = .ok i ∧ s.cmdReady = true
  | _ => False

/-- `t` is reached from `s` by steps each of which begins in a state where `P` holds (R311, R312). -/
inductive RunWhile (P : State → Prop) : State → State → Prop where
  | done (s : State) : RunWhile P s s
  | more {s t u : State} : P s → step s = .next t → RunWhile P t u → RunWhile P s u

/-- The step about to be made is phase 2 of `S_BEGINTRANS` (R263). -/
abbrev State.atPhase2 (s : State) : Prop :=
  s.nextIn = .resolve ∧ ∃ set, s.sys.ctx.top.wait = .sBegin2 set

/-- Neither reset nor phase 2 of `S_BEGINTRANS` is the step about to be made (R278). -/
abbrev State.keepsSaved (s : State) : Prop := s.nextIn ≠ .rst ∧ ¬ s.atPhase2

/-- Neither reset nor `S_ENDTRANS` is the step about to be made (R277). -/
abbrev State.keepsLock (s : State) : Prop := s.nextIn ≠ .rst ∧ ¬ s.accepts .sEndtrans

/-- The (`unit`, `op`) pairs of the CMD port that are not reserved (R104 to R107). -/
def cmdRow (w : Word) : Bool :=
  let unit := (w.extractLsb' 28 4).toNat
  let op := (w.extractLsb' 24 4).toNat
  (unit == 0 && op ≤ 5) || (unit == 1 && op ≤ 14) || (unit == 2 && op ≤ 11) || (unit == 3 && op ≤ 11)

/-- The (`unit`, `op`) pairs of the EVT port that are not reserved (R108). -/
def evtRow (w : Word) : Bool :=
  let unit := (w.extractLsb' 28 4).toNat
  let op := (w.extractLsb' 24 4).toNat
  (unit == 8 && op ≤ 1) || (unit == 9 && op ≤ 2) || (unit == 10 && op ≤ 3)

/-- The reset table of R361, line by line. A field marked "no value" is one whose value is not known. -/
def AtReset (t : State) : Prop :=
  t.sys.gie = false ∧ t.sys.xie = 0#32 ∧ t.sys.nowMs = 0#32
    ∧ t.sys.ctx.top = ⟨.fg, .none⟩ ∧ t.sys.ctx.below = [] ∧ t.out.trace = []
    ∧ t.uart.utx.head = 0 ∧ t.uart.utx.tail = 0 ∧ t.uart.urx.head = 0 ∧ t.uart.urx.tail = 0
    ∧ t.i2c.itx.head = 0 ∧ t.i2c.itx.tail = 0 ∧ t.i2c.irx.head = 0 ∧ t.i2c.irx.tail = 0
    ∧ (∀ sp i, t.slotAt sp i = none)
    ∧ t.uart.held = true ∧ t.uart.rxie = false ∧ t.uart.txie = false
    ∧ t.uart.div.get? = none ∧ t.uart.txreg.get? = none
    ∧ t.uart.bits7 = false ∧ t.uart.stop2 = false ∧ t.uart.parity = .none ∧ t.uart.cbBrk = false
    ∧ t.i2c.en = false ∧ t.i2c.mode = .master ∧ t.i2c.own = 0#10 ∧ t.i2c.own10 = false
    ∧ t.i2c.savedMode.get? = none ∧ t.i2c.role = .idle ∧ t.i2c.err = .none
    ∧ t.i2c.target = 0#10 ∧ t.i2c.target10 = false ∧ t.i2c.phase = .none
    ∧ t.i2c.expect = 0#8 ∧ t.i2c.got = 0#8 ∧ t.i2c.stp = false ∧ t.i2c.t0 = 0#32
    ∧ t.i2c.cbReq = false ∧ t.i2c.cbRcv = false ∧ t.spi.en = false ∧ t.spi.lock = false
    ∧ t.spi.cfg.div.get? = none ∧ t.spi.cfg.order.get? = none ∧ t.spi.cfg.mode.get? = none
    ∧ t.spi.saved.div.get? = none ∧ t.spi.saved.order.get? = none ∧ t.spi.saved.mode.get? = none
    ∧ t.spi.irqMode = .none ∧ t.spi.irqSrc = 0#8 ∧ t.spi.masked = false ∧ t.spi.maskedSrc = 0#8

/-! ### What a step puts out and stores, in the statements' terms -/

/-- `s` with the answer (`RSP_ILL = 0`, `RSP_VAL = v`) put out (R110). -/
def State.answering (s : State) (v : Word) : State := { s with out.answers := s.out.answers ++ [⟨false, v⟩] }

/-- `s` with the answer (`RSP_ILL = 1`, `RSP_VAL = c`) put out (R320). -/
def State.illegal (s : State) (c : Word) : State := { s with out.answers := s.out.answers ++ [⟨true, c⟩] }

/-- `s` with the output word `w` put out (R25, R113). -/
def State.emitting (s : State) (w : Word) : State := { s with out.trace := s.out.trace ++ [w] }

/-- `s` with the top frame waiting for `w` (R24). -/
def State.waiting (s : State) (w : Wait) : State := { s with sys.ctx.top.wait := w }

/-- `s` inside a new window of kind `k` (R308). -/
def State.windowed (s : State) (k : FrameKind) : State :=
  { s with sys.gie := false, sys.ctx := ⟨⟨k, .none⟩, s.sys.ctx.top :: s.sys.ctx.below⟩ }

/-- `s` with the presentation of this step taken from a script that goes on with `rest` (log 1). -/
def State.taken (s : State) (rest : List Stimulus) : State :=
  { s with env.script := rest, out.evtIll := false }

/-- The contents of a space's ring, oldest byte first (R143). -/
def State.contentsAt (s : State) (sp : Space) : List (Option Byte) := (s.ring sp).contents (s.modulus sp)

/-- `t`'s ring of `sp` is `s`'s with `b` pushed (R136, R143): the contents grow by `b`, the byte lies in the slot `head`
named, `head` advances, and every other slot of the space reads as before. -/
def PushedTo (sp : Space) (b : Byte) (s t : State) : Prop :=
  t.contentsAt sp = s.contentsAt sp ++ [some b]
    ∧ (t.ring sp).head = ((s.ring sp).head + 1) % s.modulus sp ∧ (t.ring sp).tail = (s.ring sp).tail
    ∧ t.slotAt sp (s.ring sp).head = some b ∧ ∀ i, i ≠ (s.ring sp).head → t.slotAt sp i = s.slotAt sp i

/-- `t`'s ring of `sp` is `s`'s with its oldest byte `v` popped (R137, R143): no slot of the space changes. -/
def PoppedFrom (sp : Space) (v : Byte) (s t : State) : Prop :=
  s.contentsAt sp = some v :: t.contentsAt sp
    ∧ (t.ring sp).tail = ((s.ring sp).tail + 1) % s.modulus sp ∧ (t.ring sp).head = (s.ring sp).head
    ∧ ∀ i, t.slotAt sp i = s.slotAt sp i

/-- `t`'s ring of `sp` is `s`'s cleared (R139): both indices 0, no slot of the space changes. -/
def ClearedIn (sp : Space) (s t : State) : Prop :=
  (t.ring sp).head = 0 ∧ (t.ring sp).tail = 0 ∧ ∀ i, t.slotAt sp i = s.slotAt sp i

/-- The list of refusals of R321: when a command is answered `ILL_REFUSED`. -/
def refusedWhen (i : Instr) (s : State) : Bool :=
  match i with
  | .sysGetstat => false
  | .sysEint => false
  | .sysDint => false
  | .sysXie _ _ => false
  | .sysGetxie => false
  | .sysIret => s.sys.ctx.depth == 0
  | .uBegin _ => false
  | .uEnd => false
  | .uWrite _ => false
  | .uRead => false
  | .uPeek => false
  | .uAvail => false
  | .uFlush => false
  | .uSet7bit _ => false
  | .uSetstop _ => false
  | .uSetparity _ => false
  | .uSendbreak => false
  | .uAttachbrk => false
  | .uDetachbrk => false
  | .uCaps => false
  | .uGetstat => false
  | .iBegin _ _ _ => s.i2c.phase != .none
  | .iEnd => s.i2c.phase != .none
  | .iBegintx _ _ => s.i2c.phase != .none
  | .iWrite _ => false
  | .iEndtx => !s.i2c.en || s.i2c.phase != .none
  | .iReqfrom _ _ _ => !s.i2c.en || s.i2c.phase != .none
  | .iRead => false
  | .iPeek => false
  | .iAvail => false
  | .iOnreceive _ => false
  | .iOnrequest _ => false
  | .iGetstat => false
  | .sBegin => false
  | .sEnd => false
  | .sBegintrans _ => false
  | .sEndtrans => !s.spi.lock
  | .sXfer _ => !s.spi.en
  | .sXfer16 _ => !s.spi.en
  | .sXfer9 _ => !s.spi.en
  | .sSetdiv _ => false
  | .sSetorder _ => false
  | .sSetmode _ => false
  | .sUsingint _ _ => false
  | .sGetcfg => false
  | .evTick => false
  | .evXint _ => false
  | .evUTxrdy => false
  | .evURxrdy _ => false
  | .evUBreak => false
  | .evIData _ => false
  | .evICtrl _ _ => false
  | .evIAddrack => false
  | .evIStopdone => false
  | .oCb _ _ => false
  | .oUTx _ => false
  | .oIStart _ _ _ => false
  | .oITx _ => false
  | .oIStop => false
  | .oINack => false
  | .oSXfer _ _ _ _ => false

end Sys2Proof.Machine
end

