-- ==== Sys2Proof/Certificates/Slice0/Obligations.lean ====
section
/-! DEFINITION. The statements for the provers: what spec/ says the block does, rule by rule. In an equation
`exec i s = .next t` the state `t` is written out as `s` with the fields the rule writes, so the equation is also the frame:
every other field, every slot of every ring included, is as in `s`. -/

open Sys2Proof Sys2Proof.Machine

/-! ### Words -/

/-- No bit of an encoding is dropped: the word of a well-formed instruction decodes to it, for every instruction, every
operand and every number of sources (R101, R103 to R108, R111, R112, R113). -/
def Obligations.DecodeInvertsEncode : Prop :=
  ∀ (nsrc : Nat) (i : Instr), wellFormed nsrc i = true → decode nsrc (encode i) = .ok i

/-- A word has one meaning: what decodes is a well-formed instruction, and its word is the word that was decoded
(R103, R109, R111, R112). -/
def Obligations.EncodeInvertsDecode : Prop :=
  ∀ (nsrc : Nat) (w : Word) (i : Instr), decode nsrc w = .ok i → encode i = w ∧ wellFormed nsrc i = true

/-- The checks of R109. A CMD word: port, opcode, operand, in that order; a word that passes them is its row. An EVT word is taken
exactly when it is a row of R108 with its reserved bits 0 and its value constraints kept. -/
def Obligations.WordChecks : Prop :=
  ∀ (nsrc : Nat) (w : Word),
    (8 ≤ (w.extractLsb' 28 4).toNat → decodeCmd nsrc w = .error .port)
    ∧ ((w.extractLsb' 28 4).toNat < 8 → cmdRow w = false → decodeCmd nsrc w = .error .opcode)
    ∧ (cmdRow w = true → (∀ i, wellFormed nsrc i = true → encode i ≠ w) → decodeCmd nsrc w = .error .operand)
    ∧ (∀ i, cmdRow w = true → wellFormed nsrc i = true → encode i = w → decodeCmd nsrc w = .ok i)
    ∧ ∀ i, decodeEvt nsrc w = some i ↔ evtRow w = true ∧ wellFormed nsrc i = true ∧ encode i = w

/-- Every word R115 lists, and the words R116, R161 and R309 write out, decode to what they stand for. The last line is R178's
output word: the block never decodes it (R113), that `decode` reads it is the model's form (notes/assumptions/11.md). -/
def Obligations.ExampleWordsDecode : Prop :=
  decode 8 0x13000000#32 = .ok .uRead ∧ decode 8 0x12000058#32 = .ok (.uWrite 0x58#8)
  ∧ decode 8 0x3500A55A#32 = .ok (.sXfer16 0xA55A#16) ∧ decode 8 0x360001FF#32 = .ok (.sXfer9 0x1FF#9)
  ∧ decode 8 0x10002580#32 = .ok (.uBegin 9600#24) ∧ decode 8 0x38000001#32 = .ok (.sSetorder true)
  ∧ decode 8 0x39000003#32 = .ok (.sSetmode 3#2) ∧ decode 8 0x22000028#32 = .ok (.iBegintx false 0x28#10)
  ∧ decode 8 0x20000842#32 = .ok (.iBegin true false 0x42#10) ∧ decode 8 0x20000000#32 = .ok (.iBegin false false 0#10)
  ∧ decode 8 0x25010028#32 = .ok (.iReqfrom 1#8 false 0x28#10)
  ∧ decode 8 0x32010004#32 = .ok (.sBegintrans ⟨4#16, true, 0#2⟩)
  ∧ decode 8 0x3A000000#32 = .ok (.sUsingint .none 0#8) ∧ decode 8 0x3A000200#32 = .ok (.sUsingint .all 0#8)
  ∧ decode 8 0xA1000001#32 = .ok (.evICtrl .al false) ∧ decode 8 0xA1000002#32 = .ok (.evICtrl .nack false)
  ∧ decode 8 0xA1000004#32 = .ok (.evICtrl .start false) ∧ decode 8 0xA1000008#32 = .ok (.evICtrl .stop false)
  ∧ decode 8 0x3A000103#32 = .ok (.sUsingint .one 3#8) ∧ decode 8 0x03000103#32 = .ok (.sysXie 3#8 true)
  ∧ decode 8 0xA1000014#32 = .ok (.evICtrl .start true) ∧ decode 8 0x80000000#32 = .ok .evTick
  ∧ decode 8 0xD0000058#32 = .ok (.oUTx 0x58#8)

/-! ### Steps -/

/-- A step runs the decoded instruction: the next presentation of the script is taken off it, a pulse of EVT_ILL ends, a
CMD presentation sets the MISO signal, and the meaning of the instruction runs; a wait-resolution presentation runs the
resolution of the top frame; RST resets; with no script left the presentation is the environment's choice. The script
and the choice are the model's own (notes/assumptions/1.md). -/
def Obligations.StepRunsDecodedInstruction : Prop :=
  ∀ (s : State) (rest : List Stimulus),
    (∀ w m i, s.env.script = .cmd w m :: rest → decodeCmd s.params.nsrc w = .ok i →
      step s = exec i { s.taken rest with env.miso := m })
    ∧ (∀ w i, s.env.script = .evt w :: rest → decodeEvt s.params.nsrc w = some i → step s = exec i (s.taken rest))
    ∧ (s.env.script = .resolve :: rest → step s = resolveTop (s.taken rest))
    ∧ (s.env.script = .rst :: rest → step s = .next (resetStep (s.taken rest)))
    ∧ (s.env.script = [] →
      step s = step { s with env.script := [Config.environment s.env.choices], env.choices := s.env.choices + 1 })

/-- A CMD word the block cannot execute is answered with its code and changes nothing else; an EVT word it cannot
execute is dropped and EVT_ILL pulses (R109, R320, R338). -/
def Obligations.StepRejectsBadWords : Prop :=
  ∀ (s : State) (w : Word) (rest : List Stimulus),
    (∀ m c, s.env.script = .cmd w m :: rest → s.cmdReady = true → decodeCmd s.params.nsrc w = .error c →
      step s = .next (({ s.taken rest with env.miso := m } : State).illegal
        (match c with | .opcode => 1#32 | .operand => 2#32 | .refused => 3#32 | .port => 4#32)))
    ∧ (s.env.script = .evt w :: rest → decodeEvt s.params.nsrc w = none →
      step s = .next { s.taken rest with out.evtIll := true })

/-- While the top frame waits, no CMD word is accepted, legal or not: nothing is answered and no field of the block
changes (R100, R307). That the word leaves the script is the model's (notes/assumptions/3.md). -/
def Obligations.WaitingFrameAcceptsNoCommand : Prop :=
  ∀ (s : State) (w : Word) (m : BitVec 16) (rest : List Stimulus),
    s.env.script = .cmd w m :: rest → s.sys.ctx.top.wait ≠ .none →
      step s = .next { s.taken rest with env.miso := m }

/-- When an event is deliverable (R325), read from the other side: an event that is not deliverable is not accepted and
changes nothing. `EV_TICK` is always deliverable and is not in the list. -/
def Obligations.UndeliverableEventChangesNothing : Prop :=
  ∀ (s : State) (b : Byte) (src : Source) (cause : CtrlCause) (dir : Bool),
    (¬ (s.sys.gie = true ∧ s.uart.txie = true ∧ s.uart.held = false) → exec .evUTxrdy s = .next s)
    ∧ (¬ (s.sys.gie = true ∧ s.uart.rxie = true ∧ s.uart.held = false) →
      exec (.evURxrdy b) s = .next s ∧ exec .evUBreak s = .next s)
    ∧ (¬ (s.sys.gie = true ∧ s.i2c.en = true) →
      exec (.evIData b) s = .next s ∧ exec (.evICtrl cause dir) s = .next s)
    ∧ (¬ (s.sys.gie = true ∧ s.sys.xie.getLsbD src.toNat = true) → exec (.evXint src) s = .next s)
    ∧ (s.i2c.phase ≠ .addr → exec .evIAddrack s = .next s)
    ∧ (s.i2c.stp = false → exec .evIStopdone s = .next s)

/-- The reset table of R361, line by line, for the state the machine starts in and for the state the reset step leaves, from
every state (R360). -/
def Obligations.ResetValues : Prop :=
  AtReset State.reset
  ∧ ∀ (s : State) (rest : List Stimulus), s.env.script = .rst :: rest → ∃ t, step s = .next t ∧ AtReset t

/-! ### Rings -/

/-- The count laws of R144, for every modulus of R7 and every pair of indices in range. `front` answers a byte and makes
no ring, so it leaves the count. -/
def Obligations.RingCountLaws : Prop :=
  ∀ (n : Nat) (r : Ring), 2 ≤ n → r.head < n → r.tail < n →
    r.count n ≤ n - 1 ∧ (r.empty = true ↔ r.count n = 0) ∧ (r.full n = true ↔ r.count n = n - 1)
    ∧ (∀ b r', r.push n b = .ok r' → r'.count n = r.count n + 1)
    ∧ (∀ v r', r.pop n = .ok (v, r') → r'.count n + 1 = r.count n)
    ∧ r.clear.count n = 0 ∧ r.count n + r.space n = n - 1 ∧ r.count n ≠ n
    ∧ (r.empty = true → ∀ bs : List Byte, bs.length = n → Ring.pushAll n r bs = .error .pushFull)

/-- The four primitives on the contents of a ring (R136 to R139, R143, R149, R228): `push` appends, writes one slot and moves
`head`; `pop` takes the oldest byte, moves `tail` and erases nothing; `front` shows what `pop` would take; `clear` empties;
the terminator write leaves the contents alone. Each keeps the ring as every reachable ring is. -/
def Obligations.RingPrimitivesOnContents : Prop :=
  ∀ (n : Nat) (r : Ring), r.Ok n →
    (∀ b, r.full n = false → ∃ r', r.push n b = .ok r' ∧ r'.Ok n ∧ r'.contents n = r.contents n ++ [some b]
      ∧ r'.tail = r.tail ∧ r'.buf.at? r.head = some b ∧ ∀ i, i ≠ r.head → r'.buf.at? i = r.buf.at? i)
    ∧ (r.empty = false → ∃ v r', r.pop n = .ok (v, r') ∧ r.front n = .ok v ∧ r'.Ok n
      ∧ r.contents n = some v :: r'.contents n ∧ r'.head = r.head ∧ r'.buf = r.buf)
    ∧ r.clear.Ok n ∧ r.clear.contents n = [] ∧ r.clear.buf = r.buf
    ∧ ∀ v, ∃ r', r.mark n v = .ok r' ∧ r'.Ok n ∧ r'.contents n = r.contents n ∧ r'.head = r.head ∧ r'.tail = r.tail
      ∧ r'.buf.at? r.head = some v ∧ ∀ i, i ≠ r.head → r'.buf.at? i = r.buf.at? i

/-- A ring is a FIFO queue (R80, R143, R148): any bytes that still fit, pushed one after another, leave after the bytes that
were there, all of them, in the order they entered, whatever the modulus and wherever the indices stand. -/
def Obligations.RingFifo : Prop :=
  ∀ (n : Nat) (r : Ring) (old new : List Byte), r.Ok n → r.contents n = old.map some → old.length + new.length ≤ n - 1 →
    ∃ r' r'', Ring.pushAll n r new = .ok r' ∧ Ring.popAll n r' (old.length + new.length) = .ok (old ++ new, r'')
      ∧ r''.empty = true ∧ r''.Ok n

/-- The power-of-two form of R141. For a modulus `2^k` of R7 the masked form and the `k`-bit wrapping form of `inc` and of the
count are those of R131 and R134. For any other modulus `n` of R7 and any index width `k` that holds its indices, each of
the four is wrong for some indices in range. -/
def Obligations.RingPowerOfTwoForm : Prop :=
  (∀ k head tail : Nat, 1 ≤ k → k ≤ 8 → head < 2 ^ k → tail < 2 ^ k →
    inc (2 ^ k) head = (head + 1) &&& (2 ^ k - 1)
    ∧ inc (2 ^ k) head = (BitVec.ofNat k head + 1#k).toNat
    ∧ Ring.count (2 ^ k) ⟨[], head, tail⟩
      = ((BitVec.ofNat k head - BitVec.ofNat k tail) &&& BitVec.ofNat k (2 ^ k - 1)).toNat
    ∧ Ring.count (2 ^ k) ⟨[], head, tail⟩ = (BitVec.ofNat k head - BitVec.ofNat k tail).toNat)
  ∧ ∀ n k : Nat, 2 ≤ n → n ≤ 256 → (∀ j, n ≠ 2 ^ j) → n ≤ 2 ^ k →
    (∃ i, i < n ∧ inc n i ≠ (i + 1) &&& (n - 1))
    ∧ (∃ i, i < n ∧ inc n i ≠ (BitVec.ofNat k i + 1#k).toNat)
    ∧ (∃ head tail, head < n ∧ tail < n ∧ Ring.count n ⟨[], head, tail⟩
      ≠ ((BitVec.ofNat k head - BitVec.ofNat k tail) &&& BitVec.ofNat k (n - 1)).toNat)
    ∧ ∃ head tail, head < n ∧ tail < n ∧ Ring.count n ⟨[], head, tail⟩
      ≠ (BitVec.ofNat k head - BitVec.ofNat k tail).toNat

/-- Rotation invariance (R145): `empty`, `full`, `count`, `front` and what `pop` returns do not depend on where the indices
stand, and `push` and `pop` commute with the rotation. -/
def Obligations.RingRotationInvariance : Prop :=
  ∀ (n k : Nat) (r r' : Ring), r.head < n → r.tail < n → Ring.Rotated n k r r' →
    r'.empty = r.empty ∧ r'.full n = r.full n ∧ r'.count n = r.count n ∧ r'.front n = r.front n
    ∧ r'.contents n = r.contents n
    ∧ (∀ b t, r.push n b = .ok t → ∃ t', r'.push n b = .ok t' ∧ Ring.Rotated n k t t')
    ∧ (∀ v t, r.pop n = .ok (v, t) → ∃ t', r'.pop n = .ok (v, t') ∧ Ring.Rotated n k t t')
    ∧ (∀ v t, r.mark n v = .ok t → ∃ t', r'.mark n v = .ok t' ∧ Ring.Rotated n k t t')

/-! ### System unit -/

/-- The `SYS_GETSTAT` word, bit by bit (R42), answered with no other effect (R301). -/
def Obligations.SysStatusWord : Prop :=
  ∀ s : State, s.cmdReady = true → ∃ v : Word, exec .sysGetstat s = .next (s.answering v)
    ∧ v.getLsbD 0 = s.sys.gie ∧ (v.extractLsb' 8 8).toNat = min s.sys.ctx.below.length 255
    ∧ (v.getLsbD 16 = true ↔ s.sys.ctx.top.kind ≠ .fg)
    ∧ ∀ i, i < 32 → i ≠ 0 → ¬ (8 ≤ i ∧ i ≤ 15) → i ≠ 16 → v.getLsbD i = false

/-- The `SYS_GETXIE` word, bit by bit (R43), answered with no other effect (R305). -/
def Obligations.SysXieWord : Prop :=
  ∀ s : State, s.cmdReady = true → ∃ v : Word, exec .sysGetxie s = .next (s.answering v)
    ∧ ∀ i, v.getLsbD i = (decide (i < s.params.nsrc) && s.sys.xie.getLsbD i)

/-- `SYS_EINT` and `SYS_DINT` write `gie` and nothing else (R302, R303). -/
def Obligations.SysGieCommands : Prop :=
  ∀ s : State, s.cmdReady = true →
    exec .sysEint s = .next (({ s with sys.gie := true } : State).answering 0#32)
    ∧ exec .sysDint s = .next (({ s with sys.gie := false } : State).answering 0#32)

/-- `SYS_XIE` writes the enable of one source and no other (R304). -/
def Obligations.SysXieCommand : Prop :=
  ∀ (s : State) (src : Source) (val : Bool), s.cmdReady = true → src.toNat < 32 →
    ∃ x, exec (.sysXie src val) s = .next (({ s with sys.xie := x } : State).answering 0#32)
      ∧ x.getLsbD src.toNat = val ∧ ∀ j, j ≠ src.toNat → x.getLsbD j = s.sys.xie.getLsbD j

/-- `SYS_IRET`: the return from interrupt context (R306, R330), the NACK of R229 when it closes an on-request window with an
empty queue, and the refusal in foreground. -/
def Obligations.SysIretReturns : Prop :=
  ∀ s : State, s.cmdReady = true →
    (∀ f rest, s.sys.ctx.below = f :: rest →
      (¬ (s.sys.ctx.top.kind = .cbReq ∧ s.i2c.itx.head = s.i2c.itx.tail) →
        exec .sysIret s = .next (({ s with sys.gie := true, sys.ctx := ⟨f, rest⟩ } : State).answering 0#32))
      ∧ (s.sys.ctx.top.kind = .cbReq → s.i2c.itx.head = s.i2c.itx.tail →
        exec .sysIret s = .next ((({ s with sys.gie := true, sys.ctx := ⟨f, rest⟩ } : State).emitting
          0xE3000000#32).answering 0#32)))
    ∧ (s.sys.ctx.below = [] → exec .sysIret s = .next (s.illegal 3#32))

/-- `EV_TICK` in every state, and the entry to interrupt context of `EV_XINT` (R308, R309, R310, R329): the cause is put out,
the interrupted frame is kept with its wait below the new one, interrupts are off. -/
def Obligations.TickAndExternalInterrupt : Prop :=
  ∀ s : State,
    (∃ t : BitVec 32, exec .evTick s = .next { s with sys.nowMs := t } ∧ t.toNat = (s.sys.nowMs.toNat + 1) % 2 ^ 32)
    ∧ ∀ src : Source, s.sys.gie = true → s.sys.xie.getLsbD src.toNat = true →
      exec (.evXint src) s = .next ((s.emitting (0xC000#16 ++ (src ++ 0x00#8))).windowed (.xisr src))

/-! ### UART -/

/-- `U_BEGIN` and `U_END` (R161, R162): what they write, and that they touch no slot. -/
def Obligations.UBeginAndEnd : Prop :=
  ∀ s : State, s.cmdReady = true →
    (∀ rate, exec (.uBegin rate) s = .next (({ s with
      uart.utx.head := 0, uart.utx.tail := 0, uart.urx.head := 0, uart.urx.tail := 0,
      uart.div := ⟨Config.uartDiv rate, true⟩, uart.held := false, uart.rxie := true, uart.txie := false } :
        State).answering 0#32))
    ∧ exec .uEnd s = .next (({ s with
      uart.utx.head := 0, uart.utx.tail := 0, uart.urx.head := 0, uart.urx.tail := 0,
      uart.rxie := false, uart.txie := false, uart.held := true, uart.cbBrk := false } : State).answering 0#32)

/-- `U_WRITE` (R163): into a ring with room, the byte is queued whatever `u_held` and `gie` are; on a full ring it answers 0
when waiting is unsafe, and waits otherwise. -/
def Obligations.UWriteQueuesAnswersOrWaits : Prop :=
  ∀ (s : State) (b : Byte), s.cmdReady = true →
    (s.uart.utx.Ok s.params.nUtx → s.fullAt .utx = false → ∃ r,
      exec (.uWrite b) s = .next (({ s with uart.utx := r, uart.txie := true } : State).answering 1#32)
      ∧ PushedTo .utx b s { s with uart.utx := r })
    ∧ (s.fullAt .utx = true → s.uart.held = true ∨ s.sys.gie = false →
      exec (.uWrite b) s = .next (s.answering 0#32))
    ∧ (s.fullAt .utx = true → s.uart.held = false → s.sys.gie = true →
      exec (.uWrite b) s = .next (s.waiting (.uWrite b)))

/-- `U_FLUSH` (R167) answers at once on an empty ring, else waits, whatever `u_held` and `gie` are; and the waits of the UART,
resolved by the frame on top (R175, R176, R335), are not enabled while their condition does not hold, and read neither
`u_held` nor `gie` again. Two points are the model's choice: that `W_U_WRITE` resolves also where a `U_END` in a window made
the room (R175 and R335 against R368 and R369: notes/assumptions/23.md), and that a resolution presented while it is not
enabled is a step that changes nothing (notes/assumptions/14.md). -/
def Obligations.UFlushAndUartWaits : Prop :=
  ∀ s : State,
    (s.cmdReady = true →
      (s.emptyAt .utx = true → exec .uFlush s = .next (s.answering 0#32))
      ∧ (s.emptyAt .utx = false → exec .uFlush s = .next (s.waiting .uFlush)))
    ∧ (∀ b, s.sys.ctx.top.wait = .uWrite b → s.uart.utx.Ok s.params.nUtx →
      (s.fullAt .utx = true → resolveTop s = .next s)
      ∧ (s.fullAt .utx = false → ∃ r,
        resolveTop s = .next ((({ s with uart.utx := r, uart.txie := true } : State).waiting .none).answering 1#32)
        ∧ PushedTo .utx b s { s with uart.utx := r }))
    ∧ (s.sys.ctx.top.wait = .uFlush →
      (s.emptyAt .utx = false → resolveTop s = .next s)
      ∧ (s.emptyAt .utx = true → resolveTop s = .next ((s.waiting .none).answering 0#32)))

/-- `U_READ` and `I_READ` (R164, R207): the oldest byte, or `NODATA` and nothing changed. -/
def Obligations.ReadsTakeTheOldestByte : Prop :=
  ∀ s : State, s.cmdReady = true →
    (s.emptyAt .urx = true → exec .uRead s = .next (s.answering 0xFFFFFFFF#32))
    ∧ (s.emptyAt .urx = false → s.uart.urx.Ok s.params.nUrx → ∃ (v : Byte) (r : Ring),
      exec .uRead s = .next (({ s with uart.urx := r } : State).answering (0#24 ++ v))
      ∧ PoppedFrom .urx v s { s with uart.urx := r })
    ∧ (s.emptyAt .irx = true → exec .iRead s = .next (s.answering 0xFFFFFFFF#32))
    ∧ (s.emptyAt .irx = false → s.i2c.irx.Ok s.params.nIrx → ∃ (v : Byte) (r : Ring),
      exec .iRead s = .next (({ s with i2c.irx := r } : State).answering (0#24 ++ v))
      ∧ PoppedFrom .irx v s { s with i2c.irx := r })

/-- `U_PEEK`, `I_PEEK`, `U_AVAIL`, `I_AVAIL` (R165, R166, R208, R209): the oldest byte, or `NODATA`; the count; no effect. -/
def Obligations.PeeksAndCountsChangeNothing : Prop :=
  ∀ s : State, s.cmdReady = true →
    (s.emptyAt .urx = true → exec .uPeek s = .next (s.answering 0xFFFFFFFF#32))
    ∧ (s.emptyAt .urx = false → s.uart.urx.Ok s.params.nUrx → ∃ v : Byte,
      exec .uPeek s = .next (s.answering (0#24 ++ v)) ∧ (s.contentsAt .urx).head? = some (some v))
    ∧ (s.emptyAt .irx = true → exec .iPeek s = .next (s.answering 0xFFFFFFFF#32))
    ∧ (s.emptyAt .irx = false → s.i2c.irx.Ok s.params.nIrx → ∃ v : Byte,
      exec .iPeek s = .next (s.answering (0#24 ++ v)) ∧ (s.contentsAt .irx).head? = some (some v))
    ∧ (∃ v : Word, exec .uAvail s = .next (s.answering v)
      ∧ (s.params.nUrx ≤ 256 → 0 < s.params.nUrx → v.toNat = (s.contentsAt .urx).length))
    ∧ (∃ v : Word, exec .iAvail s = .next (s.answering v)
      ∧ (s.params.nIrx ≤ 256 → 0 < s.params.nIrx → v.toNat = (s.contentsAt .irx).length))

/-- The extended set (R168 to R173): each setting is recorded and nothing else changes; send-break does nothing. -/
def Obligations.UartSettingsAreRecorded : Prop :=
  ∀ s : State, s.cmdReady = true →
    (∀ flag, exec (.uSet7bit flag) s = .next (({ s with uart.bits7 := flag } : State).answering 0#32))
    ∧ (∀ flag, exec (.uSetstop flag) s = .next (({ s with uart.stop2 := flag } : State).answering 0#32))
    ∧ (∀ sel, exec (.uSetparity sel) s = .next (({ s with uart.parity := sel } : State).answering 0#32))
    ∧ exec .uSendbreak s = .next (s.answering 0#32)
    ∧ exec .uAttachbrk s = .next (({ s with uart.cbBrk := true } : State).answering 0#32)
    ∧ exec .uDetachbrk s = .next (({ s with uart.cbBrk := false } : State).answering 0#32)

/-- The `U_CAPS` word (R45, R174) and the `U_GETSTAT` word (R44, R177), bit by bit, answered with no other effect. The counts
fit their fields in every state whose moduli R7 allows. -/
def Obligations.UartStatusWords : Prop :=
  ∀ s : State, s.cmdReady = true →
    (∃ v : Word, exec .uCaps s = .next (s.answering v) ∧ v = 0x00000017#32
      ∧ v.getLsbD 0 = true ∧ v.getLsbD 1 = true ∧ v.getLsbD 2 = true ∧ v.getLsbD 3 = false ∧ v.getLsbD 4 = true
      ∧ ∀ i, 4 < i → v.getLsbD i = false)
    ∧ (0 < s.params.nUtx → s.params.nUtx ≤ 256 → 0 < s.params.nUrx → s.params.nUrx ≤ 256 →
      ∃ v : Word, exec .uGetstat s = .next (s.answering v)
        ∧ v.getLsbD 0 = s.uart.held ∧ v.getLsbD 1 = s.uart.rxie ∧ v.getLsbD 2 = s.uart.txie
        ∧ v.getLsbD 3 = s.uart.bits7 ∧ v.getLsbD 4 = s.uart.stop2
        ∧ (v.extractLsb' 5 2).toNat = (match s.uart.parity with | .none => 0 | .odd => 1 | .even => 2)
        ∧ v.getLsbD 7 = s.uart.cbBrk ∧ (v.extractLsb' 8 8).toNat = s.countAt .utx
        ∧ (v.extractLsb' 16 8).toNat = s.countAt .urx ∧ v.extractLsb' 24 8 = 0#8)

/-- `EV_U_TXRDY` (R178): the oldest byte goes to the transmit register and out; an empty ring disables the transmit
interrupt. -/
def Obligations.TransmitReadyEvent : Prop :=
  ∀ s : State, s.sys.gie = true → s.uart.txie = true → s.uart.held = false →
    (s.emptyAt .utx = true → exec .evUTxrdy s = .next { s with uart.txie := false })
    ∧ (s.emptyAt .utx = false → s.uart.utx.Ok s.params.nUtx → ∃ (v : Byte) (r : Ring),
      exec .evUTxrdy s = .next (({ s with uart.utx := r, uart.txreg := ⟨v, true⟩ } : State).emitting
        (0xD00000#24 ++ v))
      ∧ PoppedFrom .utx v s { s with uart.utx := r })

/-- `EV_U_RXRDY` and `EV_U_BREAK` (R179, R180, R324): a byte is stored or dropped without a trace; a break opens a window
where a callback is attached and is otherwise without effect. -/
def Obligations.ReceiveAndBreakEvents : Prop :=
  ∀ (s : State) (b : Byte), s.sys.gie = true → s.uart.rxie = true → s.uart.held = false →
    (s.fullAt .urx = true → exec (.evURxrdy b) s = .next s)
    ∧ (s.fullAt .urx = false → s.uart.urx.Ok s.params.nUrx → ∃ r,
      exec (.evURxrdy b) s = .next { s with uart.urx := r } ∧ PushedTo .urx b s { s with uart.urx := r })
    ∧ (s.uart.cbBrk = true → exec .evUBreak s = .next ((s.emitting 0xC0000003#32).windowed .cbBrk))
    ∧ (s.uart.cbBrk = false → exec .evUBreak s = .next s)

/-! ### I2C -/

/-- `I_BEGIN` and `I_END` (R201, R202): what they write, and the refusal while a master operation is in progress. -/
def Obligations.IBeginAndEnd : Prop :=
  ∀ (s : State) (slave ten : Bool) (addr : I2cAddr), s.cmdReady = true →
    (s.i2c.phase = .none →
      exec (.iBegin slave ten addr) s = .next (({ s with
        i2c.itx.head := 0, i2c.itx.tail := 0, i2c.irx.head := 0, i2c.irx.tail := 0, i2c.role := .idle,
        i2c.err := .none, i2c.stp := false, i2c.expect := 0#8, i2c.got := 0#8,
        i2c.mode := (if slave then .slave else .master), i2c.own := addr, i2c.own10 := ten, i2c.en := true } :
          State).answering 0#32)
      ∧ exec .iEnd s = .next (({ s with
        i2c.itx.head := 0, i2c.itx.tail := 0, i2c.irx.head := 0, i2c.irx.tail := 0, i2c.role := .idle,
        i2c.err := .none, i2c.stp := false, i2c.en := false } : State).answering 0#32))
    ∧ (s.i2c.phase ≠ .none →
      exec (.iBegin slave ten addr) s = .next (s.illegal 3#32) ∧ exec .iEnd s = .next (s.illegal 3#32))

/-- `I_BEGINTX`, `I_ONRECEIVE`, `I_ONREQUEST` (R203, R210, R211). -/
def Obligations.IBegintxAndCallbacks : Prop :=
  ∀ (s : State) (ten flag : Bool) (addr : I2cAddr), s.cmdReady = true →
    (s.i2c.phase = .none → exec (.iBegintx ten addr) s = .next (({ s with
      i2c.role := .idle, i2c.err := .none, i2c.target := addr, i2c.target10 := ten,
      i2c.itx.head := 0, i2c.itx.tail := 0 } : State).answering 0#32))
    ∧ (s.i2c.phase ≠ .none → exec (.iBegintx ten addr) s = .next (s.illegal 3#32))
    ∧ exec (.iOnreceive flag) s = .next (({ s with i2c.cbRcv := flag } : State).answering 0#32)
    ∧ exec (.iOnrequest flag) s = .next (({ s with i2c.cbReq := flag } : State).answering 0#32)

/-- `I_WRITE` (R204): queued and answered 1, or 0 on a full queue; it never waits. -/
def Obligations.IWriteQueuesOrAnswersZero : Prop :=
  ∀ (s : State) (b : Byte), s.cmdReady = true →
    (s.fullAt .itx = true → exec (.iWrite b) s = .next (s.answering 0#32))
    ∧ (s.fullAt .itx = false → s.i2c.itx.Ok s.params.nItx → ∃ r,
      exec (.iWrite b) s = .next (({ s with i2c.itx := r } : State).answering 1#32)
      ∧ PushedTo .itx b s { s with i2c.itx := r })

/-- `I_ENDTX` and `I_REQFROM` (R205, R206): the command step of a master operation. The count of a request is cut to what the
ring holds; a request for no byte answers 0 with no bus activity; `I_ENDTX` does not reset `i_err`. -/
def Obligations.MasterOperationStarts : Prop :=
  ∀ (s : State) (count : Byte) (ten : Bool) (addr : I2cAddr), s.cmdReady = true →
    (s.i2c.en = true → s.i2c.phase = .none →
      exec .iEndtx s = .next ((({ s with
        i2c.savedMode := ⟨s.i2c.mode, true⟩, i2c.mode := .master, i2c.role := .masterTx, i2c.phase := .addr,
        i2c.t0 := s.sys.nowMs } : State).emitting
          (0xE0#8 ++ (0#12 ++ (0#1 ++ (bit s.i2c.target10 ++ s.i2c.target))))).waiting (.iAddr .tx)))
    ∧ (s.i2c.en = true → s.i2c.phase = .none → 2 ≤ s.params.nIrx →
      (count.toNat = 0 → exec (.iReqfrom count ten addr) s = .next (({ s with
        i2c.role := .idle, i2c.err := .none, i2c.target := addr, i2c.target10 := ten, i2c.irx.head := 0,
        i2c.irx.tail := 0, i2c.expect := 0#8, i2c.got := 0#8 } : State).answering 0#32))
      ∧ (count.toNat ≠ 0 → ∃ e : BitVec 8, e.toNat = min count.toNat (s.params.nIrx - 1)
        ∧ exec (.iReqfrom count ten addr) s = .next ((({ s with
          i2c.err := .none, i2c.target := addr, i2c.target10 := ten, i2c.irx.head := 0, i2c.irx.tail := 0,
          i2c.expect := e, i2c.got := 0#8, i2c.savedMode := ⟨s.i2c.mode, true⟩, i2c.mode := .master,
          i2c.role := .masterRx, i2c.phase := .addr, i2c.t0 := s.sys.nowMs } : State).emitting
            (0xE0#8 ++ (0#12 ++ (1#1 ++ (bit ten ++ addr))))).waiting (.iAddr .rx))))
    ∧ (s.i2c.en = false ∨ s.i2c.phase ≠ .none →
      exec .iEndtx s = .next (s.illegal 3#32) ∧ exec (.iReqfrom count ten addr) s = .next (s.illegal 3#32))

/-- The `I_GETSTAT` word, bit by bit (R46, with the codes of R35 and R36), answered with no other effect (R212). -/
def Obligations.I2cStatusWord : Prop :=
  ∀ s : State, s.cmdReady = true → ∃ v : Word, exec .iGetstat s = .next (s.answering v)
    ∧ (v.extractLsb' 0 3).toNat
      = (match s.i2c.role with | .idle => 0 | .masterTx => 1 | .masterRx => 2 | .slaveTx => 3 | .slaveRx => 4)
    ∧ (v.extractLsb' 3 2).toNat
      = (match s.i2c.err with | .none => 0 | .addrNack => 1 | .dataNack => 2 | .busBusy => 3)
    ∧ (v.extractLsb' 5 2).toNat = (match s.i2c.phase with | .none => 0 | .addr => 1 | .data => 2)
    ∧ v.getLsbD 7 = s.i2c.stp ∧ (v.getLsbD 8 = true ↔ s.i2c.mode = .slave) ∧ v.getLsbD 9 = s.i2c.en
    ∧ v.getLsbD 10 = s.i2c.cbReq ∧ v.getLsbD 11 = s.i2c.cbRcv ∧ v.extractLsb' 12 4 = 0#4
    ∧ v.extractLsb' 16 8 = s.i2c.got ∧ v.extractLsb' 24 8 = s.i2c.expect

/-- The wait for the address phase (R214): error, acknowledgment and deadline, in that order, the deadline by the counter's
wrapping difference; with none of them, not enabled: a step that changes nothing, the model's form
(notes/assumptions/14.md). -/
def Obligations.AddressWaitResolves : Prop :=
  ∀ (s : State) (k : MasterOp), s.sys.ctx.top.wait = .iAddr k →
    (s.i2c.err ≠ .none → resolveTop s = .next (s.waiting (.iStop k)))
    ∧ (s.i2c.err = .none → s.i2c.phase = .data → resolveTop s = .next (s.waiting (.iDone k)))
    ∧ (s.i2c.err = .none → s.i2c.phase ≠ .data →
      s.params.addrTimeout.toNat ≤ (s.sys.nowMs.toNat + 2 ^ 32 - s.i2c.t0.toNat) % 2 ^ 32 →
      resolveTop s = .next (({ s with i2c.err := .addrNack, i2c.role := .idle } : State).waiting (.iStop k)))
    ∧ (s.i2c.err = .none → s.i2c.phase ≠ .data →
      (s.sys.nowMs.toNat + 2 ^ 32 - s.i2c.t0.toNat) % 2 ^ 32 < s.params.addrTimeout.toNat →
      resolveTop s = .next s)

/-- The waits for the end of a master operation and for its STOP (R215, R216, R230): the answer, and the restore of the mode
on every path, from every state: where the saved mode holds no value its bits are copied (R14; notes/assumptions/19.md). A resolution
presented while it is not enabled changes nothing (the model's form, notes/assumptions/14.md). -/
def Obligations.MasterOperationCompletes : Prop :=
  ∀ (s : State) (k : MasterOp),
    (s.sys.ctx.top.wait = .iDone k →
      (s.i2c.role = .idle ∨ s.i2c.err ≠ .none → resolveTop s = .next (s.waiting (.iStop k)))
      ∧ (s.i2c.role ≠ .idle → s.i2c.err = .none → resolveTop s = .next s))
    ∧ (s.sys.ctx.top.wait = .iStop k →
      (s.i2c.stp = true → resolveTop s = .next s)
      ∧ (s.i2c.stp = false →
        resolveTop s = .next ((({ s with
          i2c.mode := s.i2c.savedMode.val, i2c.phase := .none, i2c.role := .idle } : State).waiting .none).answering (match s.i2c.err, k with
            | .none, .tx => 1#32
            | .none, .rx => 0#24 ++ s.i2c.got
            | .addrNack, _ => 0#32
            | .dataNack, _ => 0#32
            | .busBusy, _ => 0#32))))

/-- `EV_I_DATA` in `IDLE` and in `MASTER_TX` (R217, R218): ignored; the next byte goes out; with none left, STOP. -/
def Obligations.DataEventMasterTransmit : Prop :=
  ∀ (s : State) (b : Byte), s.sys.gie = true → s.i2c.en = true →
    (s.i2c.role = .idle → exec (.evIData b) s = .next s)
    ∧ (s.i2c.role = .masterTx → s.emptyAt .itx = true →
      exec (.evIData b) s = .next (({ s with i2c.stp := true, i2c.role := .idle } : State).emitting 0xE2000000#32))
    ∧ (s.i2c.role = .masterTx → s.emptyAt .itx = false → s.i2c.itx.Ok s.params.nItx → ∃ (v : Byte) (r : Ring),
      exec (.evIData b) s = .next (({ s with i2c.itx := r } : State).emitting (0xE10000#24 ++ v))
      ∧ PoppedFrom .itx v s { s with i2c.itx := r })

/-- `EV_I_DATA` in `MASTER_RX` (R219): the byte is stored (or, on a full ring, not), counted, and the end or the
second-to-last byte of the request acted on. -/
def Obligations.DataEventMasterReceive : Prop :=
  ∀ (s : State) (b : Byte), s.sys.gie = true → s.i2c.en = true → s.i2c.role = .masterRx →
    s.i2c.irx.Ok s.params.nIrx → ∃ r,
      (s.fullAt .irx = true → r = s.i2c.irx)
      ∧ (s.fullAt .irx = false → PushedTo .irx b s { s with i2c.irx := r })
      ∧ (s.i2c.got + 1#8 = s.i2c.expect →
        exec (.evIData b) s = .next { s with i2c.irx := r, i2c.got := s.i2c.got + 1#8, i2c.role := .idle })
      ∧ (s.i2c.got + 1#8 ≠ s.i2c.expect → (s.i2c.got + 1#8).toNat + 1 = s.i2c.expect.toNat →
        exec (.evIData b) s = .next (({ s with i2c.irx := r, i2c.got := s.i2c.got + 1#8, i2c.stp := true } :
          State).emitting 0xE2000000#32))
      ∧ (s.i2c.got + 1#8 ≠ s.i2c.expect → (s.i2c.got + 1#8).toNat + 1 ≠ s.i2c.expect.toNat →
        exec (.evIData b) s = .next { s with i2c.irx := r, i2c.got := s.i2c.got + 1#8 })

/-- `EV_I_DATA` in the slave roles (R220, R221): the next byte, or NACK when there is none; the byte stored, or NACK when
there is no room. The role stays. -/
def Obligations.DataEventSlave : Prop :=
  ∀ (s : State) (b : Byte), s.sys.gie = true → s.i2c.en = true →
    (s.i2c.role = .slaveTx → s.emptyAt .itx = true → exec (.evIData b) s = .next (s.emitting 0xE3000000#32))
    ∧ (s.i2c.role = .slaveTx → s.emptyAt .itx = false → s.i2c.itx.Ok s.params.nItx → ∃ (v : Byte) (r : Ring),
      exec (.evIData b) s = .next (({ s with i2c.itx := r } : State).emitting (0xE10000#24 ++ v))
      ∧ PoppedFrom .itx v s { s with i2c.itx := r })
    ∧ (s.i2c.role = .slaveRx → s.fullAt .irx = true → exec (.evIData b) s = .next (s.emitting 0xE3000000#32))
    ∧ (s.i2c.role = .slaveRx → s.fullAt .irx = false → s.i2c.irx.Ok s.params.nIrx → ∃ r,
      exec (.evIData b) s = .next { s with i2c.irx := r } ∧ PushedTo .irx b s { s with i2c.irx := r })

/-- `EV_I_CTRL AL` and `NACK` (R223, R224, R322): the error by cause and phase, the role back to `IDLE`; a NACK with no
transaction is ignored. -/
def Obligations.ArbitrationLossAndNack : Prop :=
  ∀ (s : State) (dir : Bool), s.sys.gie = true → s.i2c.en = true →
    exec (.evICtrl .al dir) s = .next { s with i2c.role := .idle, i2c.err := .busBusy }
    ∧ (s.i2c.role = .idle → exec (.evICtrl .nack dir) s = .next s)
    ∧ (s.i2c.role ≠ .idle → s.i2c.phase = .addr →
      exec (.evICtrl .nack dir) s = .next { s with i2c.role := .idle, i2c.err := .addrNack })
    ∧ (s.i2c.role ≠ .idle → s.i2c.phase ≠ .addr →
      exec (.evICtrl .nack dir) s = .next { s with i2c.role := .idle, i2c.err := .dataNack })

/-- `EV_I_CTRL START` (R225): in slave mode the direction bit chooses the role; a read request opens the on-request window,
or is answered NACK where no callback is registered; in master mode nothing changes. -/
def Obligations.StartEvent : Prop :=
  ∀ s : State, s.sys.gie = true → s.i2c.en = true →
    (∀ dir, s.i2c.mode = .master → exec (.evICtrl .start dir) s = .next s)
    ∧ (s.i2c.mode = .slave → exec (.evICtrl .start false) s = .next { s with
      i2c.role := .slaveRx, i2c.irx.head := 0, i2c.irx.tail := 0 })
    ∧ (s.i2c.mode = .slave → s.i2c.cbReq = true → exec (.evICtrl .start true) s = .next ((({ s with
      i2c.role := .slaveTx, i2c.itx.head := 0, i2c.itx.tail := 0 } : State).emitting 0xC0000001#32).windowed .cbReq))
    ∧ (s.i2c.mode = .slave → s.i2c.cbReq = false → exec (.evICtrl .start true) s = .next (({ s with
      i2c.role := .slaveTx, i2c.itx.head := 0, i2c.itx.tail := 0 } : State).emitting 0xE3000000#32))

/-- `EV_I_CTRL STOP` (R228): at the end of a slave reception the terminator goes into the slot `irx.head` names, if there is
room, and is not counted; the on-receive window opens with the count, where a callback is registered; a slave
transmission ends; in every other role nothing changes. -/
def Obligations.StopEvent : Prop :=
  ∀ (s : State) (dir : Bool), s.sys.gie = true → s.i2c.en = true →
    (s.i2c.role = .idle ∨ s.i2c.role = .masterTx ∨ s.i2c.role = .masterRx → exec (.evICtrl .stop dir) s = .next s)
    ∧ (s.i2c.role = .slaveTx → exec (.evICtrl .stop dir) s = .next { s with i2c.role := .idle })
    ∧ (s.i2c.role = .slaveRx → s.i2c.irx.Ok s.params.nIrx → s.params.nIrx ≤ 256 → ∃ (m : Memory) (n : BitVec 8),
      n.toNat = (s.contentsAt .irx).length
      ∧ (s.fullAt .irx = true → m = s.i2c.irx.buf)
      ∧ (s.fullAt .irx = false → m.at? s.i2c.irx.head = some s.params.terminator
        ∧ ∀ i, i ≠ s.i2c.irx.head → m.at? i = s.slotAt .irx i)
      ∧ (s.i2c.cbRcv = false →
        exec (.evICtrl .stop dir) s = .next { s with i2c.irx.buf := m, i2c.role := .idle })
      ∧ (s.i2c.cbRcv = true →
        exec (.evICtrl .stop dir) s = .next ((({ s with i2c.irx.buf := m, i2c.role := .idle } : State).emitting
          (0xC000#16 ++ (n ++ 0x02#8))).windowed .cbRcv)))

/-- The polled flags (R226, R227): no enable is read; the acknowledgment of a one-byte request pre-arms STOP. -/
def Obligations.PolledFlagEvents : Prop :=
  ∀ s : State,
    (s.i2c.phase = .addr → s.i2c.role = .masterRx → s.i2c.expect = 1#8 →
      exec .evIAddrack s = .next (({ s with i2c.phase := .data, i2c.stp := true } : State).emitting 0xE2000000#32))
    ∧ (s.i2c.phase = .addr → ¬ (s.i2c.role = .masterRx ∧ s.i2c.expect = 1#8) →
      exec .evIAddrack s = .next { s with i2c.phase := .data })
    ∧ (s.i2c.stp = true → exec .evIStopdone s = .next { s with i2c.stp := false })

/-! ### SPI -/

/-- `S_BEGINTRANS`, both phases. Phase 1 (R262): a held lock answers 0 and leaves `gie = 1`; a free one is taken, the source
configured by `S_USINGINT` is masked and remembered, and interrupts are enabled unless all are masked. Phase 2 (R263), always
enabled: save and apply in one step. -/
def Obligations.SpiBeginTransaction : Prop :=
  ∀ (s : State) (set : SpiSettings),
    (s.cmdReady = true →
      (s.spi.lock = true → exec (.sBegintrans set) s = .next (({ s with sys.gie := true } : State).answering 0#32))
      ∧ (s.spi.lock = false → s.spi.irqMode = .none → exec (.sBegintrans set) s
        = .next (({ s with spi.lock := true, sys.gie := true } : State).waiting (.sBegin2 set)))
      ∧ (s.spi.lock = false → s.spi.irqMode = .all → exec (.sBegintrans set) s
        = .next (({ s with spi.lock := true, sys.gie := false } : State).waiting (.sBegin2 set)))
      ∧ (s.spi.lock = false → s.spi.irqMode = .one → ∃ x : BitVec 32, exec (.sBegintrans set) s
        = .next (({ s with
            spi.lock := true, sys.gie := true, sys.xie := x, spi.masked := true,
            spi.maskedSrc := s.spi.irqSrc } : State).waiting (.sBegin2 set))
        ∧ ∀ j, x.getLsbD j = (decide (j ≠ s.spi.irqSrc.toNat) && s.sys.xie.getLsbD j)))
    ∧ (s.sys.ctx.top.wait = .sBegin2 set →
      resolveTop s = .next ((({ s with
        spi.saved := s.spi.cfg,
        spi.cfg := ⟨⟨Config.spiDiv set.rate, true⟩, ⟨set.order, true⟩, ⟨set.mode, true⟩⟩ } : State).waiting
          .none).answering 1#32))

/-- `S_ENDTRANS` (R264): the lock released, the masked source unmasked, the saved configuration restored, interrupts
enabled; refused when no transaction is open. -/
def Obligations.SpiEndTransaction : Prop :=
  ∀ s : State, s.cmdReady = true →
    (s.spi.lock = false → exec .sEndtrans s = .next (s.illegal 3#32))
    ∧ (s.spi.lock = true → s.spi.masked = false → exec .sEndtrans s
      = .next (({ s with spi.lock := false, spi.cfg := s.spi.saved, sys.gie := true } : State).answering 0#32))
    ∧ (s.spi.lock = true → s.spi.masked = true → ∃ x : BitVec 32, exec .sEndtrans s
      = .next (({ s with
          spi.lock := false, spi.cfg := s.spi.saved, spi.masked := false, sys.xie := x,
          sys.gie := true } : State).answering 0#32)
      ∧ ∀ j, j < 32 → x.getLsbD j = (decide (j = s.spi.maskedSrc.toNat) || s.sys.xie.getLsbD j))

/-- `S_BEGIN`, `S_END`, `S_USINGINT` and the direct reconfigurations (R261, R265, R271 to R274): neither the lock nor `s_en`
is read; one component is written and the others keep what they hold, "no value" included. -/
def Obligations.SpiConfigurationCommands : Prop :=
  ∀ s : State, s.cmdReady = true →
    exec .sBegin s = .next (({ s with spi.en := true, spi.cfg := ⟨⟨s.params.spiDefault.div, true⟩,
      ⟨s.params.spiDefault.order, true⟩, ⟨s.params.spiDefault.mode, true⟩⟩ } : State).answering 0#32)
    ∧ exec .sEnd s = .next (({ s with spi.en := false } : State).answering 0#32)
    ∧ (∀ m src, exec (.sUsingint m src) s
      = .next (({ s with spi.irqMode := m, spi.irqSrc := src } : State).answering 0#32))
    ∧ (∀ half, exec (.sSetdiv half) s = .next (({ s with spi.cfg.div := ⟨half, true⟩ } : State).answering 0#32))
    ∧ (∀ flag, exec (.sSetorder flag) s = .next (({ s with spi.cfg.order := ⟨flag, true⟩ } : State).answering 0#32))
    ∧ ∀ mode, exec (.sSetmode mode) s = .next (({ s with spi.cfg.mode := ⟨mode, true⟩ } : State).answering 0#32)

/-- The three transfers (R267 to R270): the word put out and the value received, which is the MISO signal's low bits, for
every configuration that holds an order and a mode; refused when the unit is off; no meaning, a fault, while the order or
the mode holds no value (R14, R378). -/
def Obligations.SpiTransfers : Prop :=
  ∀ (s : State) (byte : Byte) (nine : BitVec 9) (half : BitVec 16), s.cmdReady = true →
    (s.spi.en = false → exec (.sXfer byte) s = .next (s.illegal 3#32)
      ∧ exec (.sXfer9 nine) s = .next (s.illegal 3#32) ∧ exec (.sXfer16 half) s = .next (s.illegal 3#32))
    ∧ (∀ (order : Bool) (mode : BitVec 2), s.spi.en = true → s.spi.cfg.order = ⟨order, true⟩ →
      s.spi.cfg.mode = ⟨mode, true⟩ →
      exec (.sXfer byte) s = .next ((s.emitting (0xF0#8 ++ (0#3 ++ (0#2 ++ (mode ++ (bit order ++ (0#8 ++ byte))))))
        ).answering (0#24 ++ s.env.miso.extractLsb' 0 8))
      ∧ exec (.sXfer9 nine) s = .next ((s.emitting (0xF0#8 ++ (0#3 ++ (1#2 ++ (mode ++ (bit order ++ (0#7 ++ nine))))))
        ).answering (0#23 ++ s.env.miso.extractLsb' 0 9))
      ∧ exec (.sXfer16 half) s = .next ((s.emitting (0xF0#8 ++ (0#3 ++ (2#2 ++ (mode ++ (bit order ++ half)))))
        ).answering (0#16 ++ s.env.miso)))
    ∧ (s.spi.en = true → s.spi.cfg.order.known = false ∨ s.spi.cfg.mode.known = false →
      exec (.sXfer byte) s = .fault (.noValue .spiCfg) ∧ exec (.sXfer9 nine) s = .fault (.noValue .spiCfg)
      ∧ exec (.sXfer16 half) s = .fault (.noValue .spiCfg))

/-- The `S_GETCFG` word, bit by bit (R47, with the codes of R41), answered with no other effect (R275); while `s_cfg` holds
no value the command has no meaning and faults (R14). -/
def Obligations.SpiConfigurationWord : Prop :=
  ∀ s : State, s.cmdReady = true →
    (∀ div order mode, s.spi.cfg = ⟨⟨div, true⟩, ⟨order, true⟩, ⟨mode, true⟩⟩ →
      ∃ v : Word, exec .sGetcfg s = .next (s.answering v)
        ∧ v.extractLsb' 0 16 = div ∧ v.getLsbD 16 = order ∧ v.extractLsb' 17 2 = mode ∧ v.getLsbD 19 = s.spi.lock
        ∧ v.getLsbD 20 = s.spi.en ∧ v.getLsbD 21 = s.spi.masked
        ∧ (v.extractLsb' 22 2).toNat = (match s.spi.irqMode with | .none => 0 | .one => 1 | .all => 2)
        ∧ v.extractLsb' 24 8 = 0#8)
    ∧ (s.spi.cfg.div.known = false ∨ s.spi.cfg.order.known = false ∨ s.spi.cfg.mode.known = false →
      exec .sGetcfg s = .fault (.noValue .spiCfg))

/-- Wire order (R266): the `i`-th bit on the wire, first bit first, and that the received bits, put back the same way, give
the caller the value in natural order whatever the order on the wire. -/
def Obligations.SpiWireOrder : Prop :=
  ∀ (n : Nat) (order : Bool) (v : BitVec n),
    (wire order v).length = n
    ∧ (∀ i, i < n → (wire order v)[i]? = some (if order then v.getLsbD (n - 1 - i) else v.getLsbD i))
    ∧ unwire n order (wire order v) = v

/-! ### Output words -/

/-- The seven output rows (R113): what an emission puts on OUT and appends to `trace`, with the layout of its word. The block
never decodes them: that the rows have a meaning of their own under `exec` is the model's form
(notes/assumptions/11.md). -/
def Obligations.OutputWordsAreEmitted : Prop :=
  ∀ (s : State) (byte : Byte) (rw ten order : Bool) (addr : I2cAddr) (mode : BitVec 2) (value : BitVec 16),
    exec (.oCb .xint byte) s = .next (s.emitting (0xC0#8 ++ (0#8 ++ (byte ++ 0x00#8))))
    ∧ exec (.oCb .req byte) s = .next (s.emitting (0xC0#8 ++ (0#8 ++ (byte ++ 0x01#8))))
    ∧ exec (.oCb .rcv byte) s = .next (s.emitting (0xC0#8 ++ (0#8 ++ (byte ++ 0x02#8))))
    ∧ exec (.oCb .brk byte) s = .next (s.emitting (0xC0#8 ++ (0#8 ++ (byte ++ 0x03#8))))
    ∧ exec (.oUTx byte) s = .next (s.emitting (0xD00000#24 ++ byte))
    ∧ exec (.oIStart rw ten addr) s = .next (s.emitting (0xE0#8 ++ (0#12 ++ (bit rw ++ (bit ten ++ addr)))))
    ∧ exec (.oITx byte) s = .next (s.emitting (0xE10000#24 ++ byte))
    ∧ exec .oIStop s = .next (s.emitting 0xE2000000#32)
    ∧ exec .oINack s = .next (s.emitting 0xE3000000#32)
    ∧ ∀ len, exec (.oSXfer len mode order value) s = .next (s.emitting (0xF0#8 ++ (0#3 ++
        ((match len with | .bits8 => 0#2 | .bits9 => 1#2 | .bits16 => 2#2) ++ (mode ++ (bit order ++ value))))))

/-! ### The whole block -/

/-- The refusals of R321 are all the refusals: an accepted instruction is answered `ILL_REFUSED` exactly when the table says
so, and a refused command changes nothing else. -/
def Obligations.RefusalsAreTheListOfR321 : Prop :=
  ∀ (i : Instr) (s : State), s.cmdReady = true →
    (refusedWhen i s = true → exec i s = .next (s.illegal 3#32))
    ∧ (refusedWhen i s = false → ∀ t, exec i s = .next t →
      ∀ a, t.out.answers = s.out.answers ++ [a] → a.ill = false)

/-- Every accepted command is answered exactly once, by the step that completes it (R110): the step that accepts it answers
and leaves no wait of its own, or it answers nothing and the top frame waits (after `SYS_IRET` the top frame is the
interrupted one, which keeps the wait of the command it holds, R306); the resolution of a wait answers and ends the wait, or it answers nothing and
the frame goes on waiting. An event and an output word answer nothing. -/
def Obligations.OneAnswerPerCommand : Prop :=
  (∀ (i : Instr) (s t : State), s.cmdReady = true → exec i s = .next t →
    ((unitOf (encode i)).toNat < 8 →
      ((∃ a, t.out.answers = s.out.answers ++ [a]) ∧ (i ≠ .sysIret → t.sys.ctx.top.wait = .none))
      ∨ (t.out.answers = s.out.answers ∧ t.sys.ctx.top.wait ≠ .none ∧ t.sys.ctx.below = s.sys.ctx.below))
    ∧ (8 ≤ (unitOf (encode i)).toNat → t.out.answers = s.out.answers))
  ∧ ∀ s t : State, resolveTop s = .next t → s.sys.ctx.top.wait ≠ .none →
    (t.sys.ctx.top.wait = .none ∧ ∃ a, t.out.answers = s.out.answers ++ [a])
    ∨ (t.sys.ctx.top.wait ≠ .none ∧ t.out.answers = s.out.answers)

/-- Every step but reset emits at most one output word, after those already emitted (R25, R113). -/
def Obligations.AtMostOneOutputPerStep : Prop :=
  ∀ s t : State, step s = .next t → s.nextIn ≠ .rst →
    t.out.trace = s.out.trace ∨ ∃ w, t.out.trace = s.out.trace ++ [w]

/-- The writers of `gie` (R21, R331): an instruction that turns interrupts off is `SYS_DINT`, a granted `S_BEGINTRANS` under
mask-all, or an event that opens a window; one that turns them on is `SYS_EINT`, `SYS_IRET`, `S_BEGINTRANS` or
`S_ENDTRANS`. -/
def Obligations.WritersOfGie : Prop :=
  ∀ (i : Instr) (s t : State), exec i s = .next t →
    (s.sys.gie = true → t.sys.gie = false →
      i = .sysDint ∨ (∃ set, i = .sBegintrans set ∧ s.spi.irqMode = .all ∧ s.spi.lock = false)
      ∨ t.sys.ctx.below = s.sys.ctx.top :: s.sys.ctx.below)
    ∧ (s.sys.gie = false → t.sys.gie = true →
      i = .sysEint ∨ i = .sysIret ∨ (∃ set, i = .sBegintrans set) ∨ i = .sEndtrans)

/-- A single side writes each index (R79, R152): apart from the instructions that clear a ring, `head` is moved only by the
producer's instructions and `tail` only by the consumer's. -/
def Obligations.SingleWriterPerIndex : Prop :=
  ∀ (i : Instr) (s t : State), exec i s = .next t → (∀ rate, i ≠ .uBegin rate) → i ≠ .uEnd →
    (∀ slave ten addr, i ≠ .iBegin slave ten addr) → i ≠ .iEnd → (∀ ten addr, i ≠ .iBegintx ten addr) →
    (∀ count ten addr, i ≠ .iReqfrom count ten addr) → (∀ dir, i ≠ .evICtrl .start dir) →
      (t.uart.utx.head ≠ s.uart.utx.head → ∃ b, i = .uWrite b)
      ∧ (t.uart.utx.tail ≠ s.uart.utx.tail → i = .evUTxrdy)
      ∧ (t.uart.urx.head ≠ s.uart.urx.head → ∃ b, i = .evURxrdy b)
      ∧ (t.uart.urx.tail ≠ s.uart.urx.tail → i = .uRead)
      ∧ (t.i2c.itx.head ≠ s.i2c.itx.head → ∃ b, i = .iWrite b)
      ∧ (t.i2c.itx.tail ≠ s.i2c.itx.tail → ∃ b, i = .evIData b)
      ∧ (t.i2c.irx.head ≠ s.i2c.irx.head → ∃ b, i = .evIData b)
      ∧ (t.i2c.irx.tail ≠ s.i2c.irx.tail → i = .iRead)

/-- The invariant holds at reset. -/
def Obligations.ResetMeetsInvariant : Prop := State.reset.Inv

/-- Every step keeps the invariant, from every state that meets it: ring indices and storage (R142, R143, R49 item 1), the stack
of frames (R49 item 3), the sources (R49 item 6), the phase and its one waiting frame (R49 item 7, R213), the roles (R231), the
request count (R219) and the life of `u_txie` (R182). -/
def Obligations.StepKeepsInvariant : Prop := ∀ s t : State, s.Inv → step s = .next t → t.Inv

/-- Safe steps: from every state that meets the invariant every step has a next state, but for exactly these commands, which
would show the SPI configuration while it holds no value (R14, R378): an accepted `S_GETCFG` with a component that holds
none, an accepted transfer with the unit on and an order or a mode that holds none. No push meets a full ring, no pop an
empty one, no access leaves its space (R72, R136, R137). -/
def Obligations.StepIsSafe : Prop :=
  ∀ s : State, s.Inv → SafeOutcome (step s)
    ∧ (step s = .fault (.noValue .spiCfg) ↔
      (s.accepts .sGetcfg
        ∧ (s.spi.cfg.div.known = false ∨ s.spi.cfg.order.known = false ∨ s.spi.cfg.mode.known = false))
      ∨ (((∃ b, s.accepts (.sXfer b)) ∨ (∃ h, s.accepts (.sXfer16 h)) ∨ ∃ n, s.accepts (.sXfer9 n))
        ∧ s.spi.en = true ∧ (s.spi.cfg.order.known = false ∨ s.spi.cfg.mode.known = false)))

/-- Mutual exclusion over a run (R277): while neither reset nor `S_ENDTRANS` is taken the lock stays held, and every
`S_BEGINTRANS` accepted in between answers 0 and writes nothing of the block but `gie`. -/
def Obligations.SpiLockExcludes : Prop :=
  ∀ s t : State, s.spi.lock = true → RunWhile State.keepsLock s t →
    t.spi.lock = true
    ∧ ∀ set, t.accepts (.sBegintrans set) → ∃ e : Environment, step t
      = .next (({ t with sys.gie := true, env := e, out.evtIll := false } : State).answering 0#32)

/-- Restore over a run (R278): the configuration active when phase 2 runs is active again after `S_ENDTRANS`, whatever ran in
between, as long as no other phase 2 and no reset did. -/
def Obligations.SpiTransactionRestores : Prop :=
  ∀ a b c d : State, a.atPhase2 → step a = .next b → RunWhile State.keepsSaved b c →
    c.accepts .sEndtrans → c.spi.lock = true → step c = .next d → d.spi.cfg = a.spi.cfg
end

