-- ==== Sys2Proof/Laws/Encoding.lean ====
section
/-! SUPPORT. Fields of concatenated words, and each operand format read back from what the encoder writes (R101, R103). -/

namespace Sys2Proof

/-! ### Concatenation and fields -/

theorem append_and {a b : Nat} (x p : BitVec a) (y q : BitVec b) :
    (x ++ y) &&& (p ++ q) = (x &&& p) ++ (y &&& q) := by
  ext i hi
  simp only [BitVec.getElem_and, BitVec.getElem_append]
  split <;> simp [*]

/-- A field inside the high part. -/
theorem extract_high {a b : Nat} (x : BitVec a) (y : BitVec b) (lo len : Nat) (h : b ≤ lo) :
    (x ++ y).extractLsb' lo len = x.extractLsb' (lo - b) len := by
  ext i hi
  have e : lo + i - b = lo - b + i := by omega
  have e2 : ¬ lo + i < b := by omega
  simp [BitVec.getLsbD_append, BitVec.getElem_extractLsb', e, e2]

/-- A field inside the low part. -/
theorem extract_low {a b : Nat} (x : BitVec a) (y : BitVec b) (lo len : Nat) (h : lo + len ≤ b) :
    (x ++ y).extractLsb' lo len = y.extractLsb' lo len := by
  ext i hi
  simp [BitVec.getLsbD_append, BitVec.getElem_extractLsb']
  intro h'
  omega

/-- The whole word as a field. -/
theorem extract_all {a : Nat} (x : BitVec a) : x.extractLsb' 0 a = x := by
  ext i hi
  simp

@[simp] theorem keyOf_word (k : BitVec 8) (a : Arg) : keyOf (word k a) = k := by
  unfold keyOf word
  rw [extract_high _ _ _ _ (le_refl _)]
  exact extract_all k

@[simp] theorem argOf_word (k : BitVec 8) (a : Arg) : argOf (word k a) = a := by
  unfold argOf word
  rw [extract_low _ _ _ _ (by omega)]
  exact extract_all a

/-- A word is its key and its operand. -/
theorem word_keyOf_argOf (w : Word) : word (keyOf w) (argOf w) = w := by
  unfold word keyOf argOf
  ext i hi
  simp only [BitVec.getElem_append, BitVec.getElem_extractLsb']
  split
  · simp [BitVec.getLsbD_eq_getElem hi]
  · rw [show 24 + (i - 24) = i by omega, BitVec.getLsbD_eq_getElem hi]

/-- The unit is the high half of the key. -/
theorem unitOf_word (k : BitVec 8) (a : Arg) : unitOf (word k a) = k.extractLsb' 4 4 := by
  unfold unitOf word
  exact extract_high _ _ _ _ (by omega)

theorem word_and (k p : BitVec 8) (a q : Arg) : word k a &&& word p q = word (k &&& p) (a &&& q) := append_and ..

@[simp] theorem bit_eq_one (b : Bool) : (bit b == 1#1) = b := by cases b <;> rfl

/-! ### Coded operands -/

@[simp] theorem parityOf_code (p : Parity) : parityOf p.code = some p := by cases p <;> rfl
@[simp] theorem irqModeOf_code (m : IrqMode) : irqModeOf m.code = some m := by cases m <;> rfl
@[simp] theorem causeOf_code (c : CtrlCause) : causeOf c.code = some c := by cases c <;> rfl
@[simp] theorem cbKindOf_code (k : CbKind) : cbKindOf k.code = k := by cases k <;> rfl
@[simp] theorem xferLenOf_code (l : XferLen) : xferLenOf l.code = some l := by cases l <;> rfl

/-! ### Fields of each written format

The fields of a written operand, and its reserved bits under the table's masks. -/

theorem argB_byte (b : Byte) : field (argB b) 0 8 = b := by
  unfold argB field
  rw [extract_low _ _ _ _ (by omega), extract_all]

theorem argB_reserved (b : Byte) : argB b &&& 0xFFFF00#24 = 0#24 :=
  (append_and 0#16 0xFFFF#16 b 0x00#8).trans (by simp)

theorem argH_reserved (h : BitVec 16) : argH h &&& 0xFF0000#24 = 0#24 :=
  (append_and 0#8 0xFF#8 h 0#16).trans (by simp)

theorem argW9_reserved (n : BitVec 9) : argW9 n &&& 0xFFFE00#24 = 0#24 :=
  (append_and 0#15 0x7FFF#15 n 0#9).trans (by simp)

theorem argF1_reserved (f : Bool) : argF1 f &&& 0xFFFFFE#24 = 0#24 :=
  (append_and 0#23 0x7FFFFF#23 (bit f) 0#1).trans (by simp)

theorem argF2_reserved (v : BitVec 2) : argF2 v &&& 0xFFFFFC#24 = 0#24 :=
  (append_and 0#22 0x3FFFFF#22 v 0#2).trans (by simp)

theorem argA_reserved (ten : Bool) (addr : I2cAddr) : argA ten addr &&& 0xFFF800#24 = 0#24 :=
  (append_and 0#13 0x1FFF#13 (bit ten ++ addr) 0#11).trans (by simp)

theorem argAS_reserved (slave ten : Bool) (addr : I2cAddr) : argAS slave ten addr &&& 0xFFF000#24 = 0#24 :=
  (append_and 0#12 0xFFF#12 (bit slave ++ (bit ten ++ addr)) 0#12).trans (by simp)

theorem argAQ_reserved (count : Byte) (ten : Bool) (addr : I2cAddr) : argAQ count ten addr &&& 0x00F800#24 = 0#24 := by
  have low : (0#5 ++ (bit ten ++ addr)) &&& 0xF800#16 = 0#16 :=
    (append_and 0#5 0x1F#5 (bit ten ++ addr) 0#11).trans (by simp)
  exact (append_and count 0#8 (0#5 ++ (bit ten ++ addr)) 0xF800#16).trans (by rw [low]; simp)

theorem argS_reserved (v : SpiSettings) : argS v &&& 0xF80000#24 = 0#24 :=
  (append_and 0#5 0x1F#5 (v.mode ++ (bit v.order ++ v.rate)) 0#19).trans (by simp)

theorem argI_reserved (m : IrqMode) (src : Source) : argI m src &&& 0xFFFC00#24 = 0#24 :=
  (append_and 0#14 0x3FFF#14 (m.code ++ src) 0#10).trans (by simp)

theorem argX_reserved (src : Source) (val : Bool) : argX src val &&& 0xFFFE00#24 = 0#24 :=
  (append_and 0#15 0x7FFF#15 (bit val ++ src) 0#9).trans (by simp)

theorem argC_reserved (cause : CtrlCause) (dir : Bool) : argC cause dir &&& 0xFFFFE0#24 = 0#24 :=
  (append_and 0#19 0x7FFFF#19 (bit dir ++ cause.code) 0#5).trans (by simp)

theorem argCb_reserved (kind : CbKind) (info : Byte) : argCb kind info &&& 0xFF00FC#24 = 0#24 := by
  have low : (0#6 ++ kind.code) &&& 0xFC#8 = 0#8 := (append_and 0#6 0x3F#6 kind.code 0#2).trans (by simp)
  have mid : (info ++ (0#6 ++ kind.code)) &&& 0x00FC#16 = 0#16 :=
    (append_and info 0#8 (0#6 ++ kind.code) 0xFC#8).trans (by rw [low]; simp)
  exact (append_and 0#8 0xFF#8 (info ++ (0#6 ++ kind.code)) 0x00FC#16).trans (by rw [mid]; simp)

theorem argXfer_reserved (len : XferLen) (mode : BitVec 2) (order : Bool) (value : BitVec 16) :
    argXfer len mode order value &&& 0xE00000#24 = 0#24 :=
  (append_and 0#3 0x7#3 (len.code ++ (mode ++ (bit order ++ value))) 0#21).trans (by simp)

end Sys2Proof
end

