-- ==== Sys2Proof/Laws/State.lean ====
section
/-! SUPPORT. What each shared state update leaves and what it writes: one lemma per update and part of the state, true by
`rfl`, so that no later proof unfolds a record update. -/

namespace Sys2Proof.Machine

variable (s : State)

/-! ### Fields that may hold no value -/

@[simp] theorem Field.get?_known {α : Type} (a : α) : (⟨a, true⟩ : Field α).get? = some a := rfl
@[simp] theorem Field.get?_unknown {α : Type} (a : α) : (⟨a, false⟩ : Field α).get? = none := rfl
theorem Field.get?_eq_none {α : Type} {f : Field α} : f.get? = none ↔ f.known = false := by
  unfold Field.get?; cases f.known <;> simp
theorem Field.get?_eq_some {α : Type} {f : Field α} {a : α} : f.get? = some a ↔ f = ⟨a, true⟩ := by
  rcases f with ⟨v, _ | _⟩ <;> simp [Field.get?]
@[simp] theorem SpiReg.noValue_div (c : SpiCfg) : (SpiReg.noValue c).div.get? = none := rfl
@[simp] theorem SpiReg.noValue_order (c : SpiCfg) : (SpiReg.noValue c).order.get? = none := rfl
@[simp] theorem SpiReg.noValue_mode (c : SpiCfg) : (SpiReg.noValue c).mode.get? = none := rfl

/-! ### `respond` -/

@[simp] theorem respond_sys (v : Word) : (respond v s).sys = s.sys := rfl
@[simp] theorem respond_uart (v : Word) : (respond v s).uart = s.uart := rfl
@[simp] theorem respond_i2c (v : Word) : (respond v s).i2c = s.i2c := rfl
@[simp] theorem respond_spi (v : Word) : (respond v s).spi = s.spi := rfl
@[simp] theorem respond_out_trace (v : Word) : (respond v s).out.trace = s.out.trace := rfl
@[simp] theorem respond_out_answers (v : Word) : (respond v s).out.answers = s.out.answers ++ [⟨false, v⟩] := rfl
@[simp] theorem respond_out_evtIll (v : Word) : (respond v s).out.evtIll = s.out.evtIll := rfl
@[simp] theorem respond_env (v : Word) : (respond v s).env = s.env := rfl
@[simp] theorem respond_params (v : Word) : (respond v s).params = s.params := rfl

/-! ### `raiseIllegal` -/

@[simp] theorem raiseIllegal_sys (c : IllCode) : (raiseIllegal c s).sys = s.sys := rfl
@[simp] theorem raiseIllegal_uart (c : IllCode) : (raiseIllegal c s).uart = s.uart := rfl
@[simp] theorem raiseIllegal_i2c (c : IllCode) : (raiseIllegal c s).i2c = s.i2c := rfl
@[simp] theorem raiseIllegal_spi (c : IllCode) : (raiseIllegal c s).spi = s.spi := rfl
@[simp] theorem raiseIllegal_out_trace (c : IllCode) : (raiseIllegal c s).out.trace = s.out.trace := rfl
@[simp] theorem raiseIllegal_out_answers (c : IllCode) : (raiseIllegal c s).out.answers = s.out.answers ++ [⟨true, c.code⟩] := rfl
@[simp] theorem raiseIllegal_out_evtIll (c : IllCode) : (raiseIllegal c s).out.evtIll = s.out.evtIll := rfl
@[simp] theorem raiseIllegal_env (c : IllCode) : (raiseIllegal c s).env = s.env := rfl
@[simp] theorem raiseIllegal_params (c : IllCode) : (raiseIllegal c s).params = s.params := rfl

/-! ### `emit` -/

@[simp] theorem emit_sys (e : Instr) : (emit e s).sys = s.sys := rfl
@[simp] theorem emit_uart (e : Instr) : (emit e s).uart = s.uart := rfl
@[simp] theorem emit_i2c (e : Instr) : (emit e s).i2c = s.i2c := rfl
@[simp] theorem emit_spi (e : Instr) : (emit e s).spi = s.spi := rfl
@[simp] theorem emit_out_trace (e : Instr) : (emit e s).out.trace = s.out.trace ++ [encode e] := rfl
@[simp] theorem emit_out_answers (e : Instr) : (emit e s).out.answers = s.out.answers := rfl
@[simp] theorem emit_out_evtIll (e : Instr) : (emit e s).out.evtIll = s.out.evtIll := rfl
@[simp] theorem emit_env (e : Instr) : (emit e s).env = s.env := rfl
@[simp] theorem emit_params (e : Instr) : (emit e s).params = s.params := rfl

/-! ### `setWait` -/

@[simp] theorem setWait_sys_gie (w : Wait) : (setWait w s).sys.gie = s.sys.gie := rfl
@[simp] theorem setWait_sys_xie (w : Wait) : (setWait w s).sys.xie = s.sys.xie := rfl
@[simp] theorem setWait_sys_nowMs (w : Wait) : (setWait w s).sys.nowMs = s.sys.nowMs := rfl
@[simp] theorem setWait_sys_ctx_top_kind (w : Wait) : (setWait w s).sys.ctx.top.kind = s.sys.ctx.top.kind := rfl
@[simp] theorem setWait_sys_ctx_top_wait (w : Wait) : (setWait w s).sys.ctx.top.wait = w := rfl
@[simp] theorem setWait_sys_ctx_below (w : Wait) : (setWait w s).sys.ctx.below = s.sys.ctx.below := rfl
@[simp] theorem setWait_uart (w : Wait) : (setWait w s).uart = s.uart := rfl
@[simp] theorem setWait_i2c (w : Wait) : (setWait w s).i2c = s.i2c := rfl
@[simp] theorem setWait_spi (w : Wait) : (setWait w s).spi = s.spi := rfl
@[simp] theorem setWait_out (w : Wait) : (setWait w s).out = s.out := rfl
@[simp] theorem setWait_env (w : Wait) : (setWait w s).env = s.env := rfl
@[simp] theorem setWait_params (w : Wait) : (setWait w s).params = s.params := rfl

/-! ### `hold` -/

@[simp] theorem hold_sys_gie (w : Wait) : (hold w s).sys.gie = s.sys.gie := rfl
@[simp] theorem hold_sys_xie (w : Wait) : (hold w s).sys.xie = s.sys.xie := rfl
@[simp] theorem hold_sys_nowMs (w : Wait) : (hold w s).sys.nowMs = s.sys.nowMs := rfl
@[simp] theorem hold_sys_ctx_top_kind (w : Wait) : (hold w s).sys.ctx.top.kind = s.sys.ctx.top.kind := rfl
@[simp] theorem hold_sys_ctx_top_wait (w : Wait) : (hold w s).sys.ctx.top.wait = w := rfl
@[simp] theorem hold_sys_ctx_below (w : Wait) : (hold w s).sys.ctx.below = s.sys.ctx.below := rfl
@[simp] theorem hold_uart (w : Wait) : (hold w s).uart = s.uart := rfl
@[simp] theorem hold_i2c (w : Wait) : (hold w s).i2c = s.i2c := rfl
@[simp] theorem hold_spi (w : Wait) : (hold w s).spi = s.spi := rfl
@[simp] theorem hold_out (w : Wait) : (hold w s).out = s.out := rfl
@[simp] theorem hold_env (w : Wait) : (hold w s).env = s.env := rfl
@[simp] theorem hold_params (w : Wait) : (hold w s).params = s.params := rfl

/-! ### `openWindow` -/

@[simp] theorem openWindow_sys_gie (k : FrameKind) : (openWindow k s).sys.gie = false := rfl
@[simp] theorem openWindow_sys_xie (k : FrameKind) : (openWindow k s).sys.xie = s.sys.xie := rfl
@[simp] theorem openWindow_sys_nowMs (k : FrameKind) : (openWindow k s).sys.nowMs = s.sys.nowMs := rfl
@[simp] theorem openWindow_sys_ctx (k : FrameKind) : (openWindow k s).sys.ctx = ⟨⟨k, .none⟩, s.sys.ctx.top :: s.sys.ctx.below⟩ := rfl
@[simp] theorem openWindow_uart (k : FrameKind) : (openWindow k s).uart = s.uart := rfl
@[simp] theorem openWindow_i2c (k : FrameKind) : (openWindow k s).i2c = s.i2c := rfl
@[simp] theorem openWindow_spi (k : FrameKind) : (openWindow k s).spi = s.spi := rfl
@[simp] theorem openWindow_out (k : FrameKind) : (openWindow k s).out = s.out := rfl
@[simp] theorem openWindow_env (k : FrameKind) : (openWindow k s).env = s.env := rfl
@[simp] theorem openWindow_params (k : FrameKind) : (openWindow k s).params = s.params := rfl

/-! ### `enterWindow` -/

@[simp] theorem enterWindow_sys_gie (cb : CbKind) (info : Byte) (k : FrameKind) : (enterWindow cb info k s).sys.gie = false := rfl
@[simp] theorem enterWindow_sys_xie (cb : CbKind) (info : Byte) (k : FrameKind) : (enterWindow cb info k s).sys.xie = s.sys.xie := rfl
@[simp] theorem enterWindow_sys_nowMs (cb : CbKind) (info : Byte) (k : FrameKind) : (enterWindow cb info k s).sys.nowMs = s.sys.nowMs := rfl
@[simp] theorem enterWindow_sys_ctx (cb : CbKind) (info : Byte) (k : FrameKind) : (enterWindow cb info k s).sys.ctx = ⟨⟨k, .none⟩, s.sys.ctx.top :: s.sys.ctx.below⟩ := rfl
@[simp] theorem enterWindow_uart (cb : CbKind) (info : Byte) (k : FrameKind) : (enterWindow cb info k s).uart = s.uart := rfl
@[simp] theorem enterWindow_i2c (cb : CbKind) (info : Byte) (k : FrameKind) : (enterWindow cb info k s).i2c = s.i2c := rfl
@[simp] theorem enterWindow_spi (cb : CbKind) (info : Byte) (k : FrameKind) : (enterWindow cb info k s).spi = s.spi := rfl
@[simp] theorem enterWindow_out_trace (cb : CbKind) (info : Byte) (k : FrameKind) : (enterWindow cb info k s).out.trace = s.out.trace ++ [encode (.oCb cb info)] := rfl
@[simp] theorem enterWindow_out_answers (cb : CbKind) (info : Byte) (k : FrameKind) : (enterWindow cb info k s).out.answers = s.out.answers := rfl
@[simp] theorem enterWindow_out_evtIll (cb : CbKind) (info : Byte) (k : FrameKind) : (enterWindow cb info k s).out.evtIll = s.out.evtIll := rfl
@[simp] theorem enterWindow_env (cb : CbKind) (info : Byte) (k : FrameKind) : (enterWindow cb info k s).env = s.env := rfl
@[simp] theorem enterWindow_params (cb : CbKind) (info : Byte) (k : FrameKind) : (enterWindow cb info k s).params = s.params := rfl

/-! ### `popFrame` -/

@[simp] theorem popFrame_sys_gie (f : Frame) (rest : List Frame) : (popFrame f rest s).sys.gie = true := rfl
@[simp] theorem popFrame_sys_xie (f : Frame) (rest : List Frame) : (popFrame f rest s).sys.xie = s.sys.xie := rfl
@[simp] theorem popFrame_sys_nowMs (f : Frame) (rest : List Frame) : (popFrame f rest s).sys.nowMs = s.sys.nowMs := rfl
@[simp] theorem popFrame_sys_ctx (f : Frame) (rest : List Frame) : (popFrame f rest s).sys.ctx = ⟨f, rest⟩ := rfl
@[simp] theorem popFrame_uart (f : Frame) (rest : List Frame) : (popFrame f rest s).uart = s.uart := rfl
@[simp] theorem popFrame_i2c (f : Frame) (rest : List Frame) : (popFrame f rest s).i2c = s.i2c := rfl
@[simp] theorem popFrame_spi (f : Frame) (rest : List Frame) : (popFrame f rest s).spi = s.spi := rfl
@[simp] theorem popFrame_out (f : Frame) (rest : List Frame) : (popFrame f rest s).out = s.out := rfl
@[simp] theorem popFrame_env (f : Frame) (rest : List Frame) : (popFrame f rest s).env = s.env := rfl
@[simp] theorem popFrame_params (f : Frame) (rest : List Frame) : (popFrame f rest s).params = s.params := rfl

/-! ### `setGie` -/

@[simp] theorem setGie_sys_gie (b : Bool) : (setGie b s).sys.gie = b := rfl
@[simp] theorem setGie_sys_xie (b : Bool) : (setGie b s).sys.xie = s.sys.xie := rfl
@[simp] theorem setGie_sys_nowMs (b : Bool) : (setGie b s).sys.nowMs = s.sys.nowMs := rfl
@[simp] theorem setGie_sys_ctx (b : Bool) : (setGie b s).sys.ctx = s.sys.ctx := rfl
@[simp] theorem setGie_uart (b : Bool) : (setGie b s).uart = s.uart := rfl
@[simp] theorem setGie_i2c (b : Bool) : (setGie b s).i2c = s.i2c := rfl
@[simp] theorem setGie_spi (b : Bool) : (setGie b s).spi = s.spi := rfl
@[simp] theorem setGie_out (b : Bool) : (setGie b s).out = s.out := rfl
@[simp] theorem setGie_env (b : Bool) : (setGie b s).env = s.env := rfl
@[simp] theorem setGie_params (b : Bool) : (setGie b s).params = s.params := rfl

/-! ### `setXie` -/

@[simp] theorem setXie_sys_gie (src : Source) (val : Bool) : (setXie src val s).sys.gie = s.sys.gie := rfl
@[simp] theorem setXie_sys_xie (src : Source) (val : Bool) : (setXie src val s).sys.xie = if val then s.sys.xie ||| sourceBit src else s.sys.xie &&& ~~~(sourceBit src) := rfl
@[simp] theorem setXie_sys_nowMs (src : Source) (val : Bool) : (setXie src val s).sys.nowMs = s.sys.nowMs := rfl
@[simp] theorem setXie_sys_ctx (src : Source) (val : Bool) : (setXie src val s).sys.ctx = s.sys.ctx := rfl
@[simp] theorem setXie_uart (src : Source) (val : Bool) : (setXie src val s).uart = s.uart := rfl
@[simp] theorem setXie_i2c (src : Source) (val : Bool) : (setXie src val s).i2c = s.i2c := rfl
@[simp] theorem setXie_spi (src : Source) (val : Bool) : (setXie src val s).spi = s.spi := rfl
@[simp] theorem setXie_out (src : Source) (val : Bool) : (setXie src val s).out = s.out := rfl
@[simp] theorem setXie_env (src : Source) (val : Bool) : (setXie src val s).env = s.env := rfl
@[simp] theorem setXie_params (src : Source) (val : Bool) : (setXie src val s).params = s.params := rfl

/-! ### `setRole` -/

@[simp] theorem setRole_sys (r : Role) : (setRole r s).sys = s.sys := rfl
@[simp] theorem setRole_uart (r : Role) : (setRole r s).uart = s.uart := rfl
@[simp] theorem setRole_i2c_itx (r : Role) : (setRole r s).i2c.itx = s.i2c.itx := rfl
@[simp] theorem setRole_i2c_irx (r : Role) : (setRole r s).i2c.irx = s.i2c.irx := rfl
@[simp] theorem setRole_i2c_en (r : Role) : (setRole r s).i2c.en = s.i2c.en := rfl
@[simp] theorem setRole_i2c_mode (r : Role) : (setRole r s).i2c.mode = s.i2c.mode := rfl
@[simp] theorem setRole_i2c_own (r : Role) : (setRole r s).i2c.own = s.i2c.own := rfl
@[simp] theorem setRole_i2c_own10 (r : Role) : (setRole r s).i2c.own10 = s.i2c.own10 := rfl
@[simp] theorem setRole_i2c_savedMode (r : Role) : (setRole r s).i2c.savedMode = s.i2c.savedMode := rfl
@[simp] theorem setRole_i2c_role (r : Role) : (setRole r s).i2c.role = r := rfl
@[simp] theorem setRole_i2c_err (r : Role) : (setRole r s).i2c.err = s.i2c.err := rfl
@[simp] theorem setRole_i2c_target (r : Role) : (setRole r s).i2c.target = s.i2c.target := rfl
@[simp] theorem setRole_i2c_target10 (r : Role) : (setRole r s).i2c.target10 = s.i2c.target10 := rfl
@[simp] theorem setRole_i2c_phase (r : Role) : (setRole r s).i2c.phase = s.i2c.phase := rfl
@[simp] theorem setRole_i2c_expect (r : Role) : (setRole r s).i2c.expect = s.i2c.expect := rfl
@[simp] theorem setRole_i2c_got (r : Role) : (setRole r s).i2c.got = s.i2c.got := rfl
@[simp] theorem setRole_i2c_stp (r : Role) : (setRole r s).i2c.stp = s.i2c.stp := rfl
@[simp] theorem setRole_i2c_t0 (r : Role) : (setRole r s).i2c.t0 = s.i2c.t0 := rfl
@[simp] theorem setRole_i2c_cbReq (r : Role) : (setRole r s).i2c.cbReq = s.i2c.cbReq := rfl
@[simp] theorem setRole_i2c_cbRcv (r : Role) : (setRole r s).i2c.cbRcv = s.i2c.cbRcv := rfl
@[simp] theorem setRole_spi (r : Role) : (setRole r s).spi = s.spi := rfl
@[simp] theorem setRole_out (r : Role) : (setRole r s).out = s.out := rfl
@[simp] theorem setRole_env (r : Role) : (setRole r s).env = s.env := rfl
@[simp] theorem setRole_params (r : Role) : (setRole r s).params = s.params := rfl

/-! ### `setErr` -/

@[simp] theorem setErr_sys (e : I2cErr) : (setErr e s).sys = s.sys := rfl
@[simp] theorem setErr_uart (e : I2cErr) : (setErr e s).uart = s.uart := rfl
@[simp] theorem setErr_i2c_itx (e : I2cErr) : (setErr e s).i2c.itx = s.i2c.itx := rfl
@[simp] theorem setErr_i2c_irx (e : I2cErr) : (setErr e s).i2c.irx = s.i2c.irx := rfl
@[simp] theorem setErr_i2c_en (e : I2cErr) : (setErr e s).i2c.en = s.i2c.en := rfl
@[simp] theorem setErr_i2c_mode (e : I2cErr) : (setErr e s).i2c.mode = s.i2c.mode := rfl
@[simp] theorem setErr_i2c_own (e : I2cErr) : (setErr e s).i2c.own = s.i2c.own := rfl
@[simp] theorem setErr_i2c_own10 (e : I2cErr) : (setErr e s).i2c.own10 = s.i2c.own10 := rfl
@[simp] theorem setErr_i2c_savedMode (e : I2cErr) : (setErr e s).i2c.savedMode = s.i2c.savedMode := rfl
@[simp] theorem setErr_i2c_role (e : I2cErr) : (setErr e s).i2c.role = s.i2c.role := rfl
@[simp] theorem setErr_i2c_err (e : I2cErr) : (setErr e s).i2c.err = e := rfl
@[simp] theorem setErr_i2c_target (e : I2cErr) : (setErr e s).i2c.target = s.i2c.target := rfl
@[simp] theorem setErr_i2c_target10 (e : I2cErr) : (setErr e s).i2c.target10 = s.i2c.target10 := rfl
@[simp] theorem setErr_i2c_phase (e : I2cErr) : (setErr e s).i2c.phase = s.i2c.phase := rfl
@[simp] theorem setErr_i2c_expect (e : I2cErr) : (setErr e s).i2c.expect = s.i2c.expect := rfl
@[simp] theorem setErr_i2c_got (e : I2cErr) : (setErr e s).i2c.got = s.i2c.got := rfl
@[simp] theorem setErr_i2c_stp (e : I2cErr) : (setErr e s).i2c.stp = s.i2c.stp := rfl
@[simp] theorem setErr_i2c_t0 (e : I2cErr) : (setErr e s).i2c.t0 = s.i2c.t0 := rfl
@[simp] theorem setErr_i2c_cbReq (e : I2cErr) : (setErr e s).i2c.cbReq = s.i2c.cbReq := rfl
@[simp] theorem setErr_i2c_cbRcv (e : I2cErr) : (setErr e s).i2c.cbRcv = s.i2c.cbRcv := rfl
@[simp] theorem setErr_spi (e : I2cErr) : (setErr e s).spi = s.spi := rfl
@[simp] theorem setErr_out (e : I2cErr) : (setErr e s).out = s.out := rfl
@[simp] theorem setErr_env (e : I2cErr) : (setErr e s).env = s.env := rfl
@[simp] theorem setErr_params (e : I2cErr) : (setErr e s).params = s.params := rfl

/-! ### `setCfg` -/

@[simp] theorem setCfg_sys (c : SpiReg) : (setCfg c s).sys = s.sys := rfl
@[simp] theorem setCfg_uart (c : SpiReg) : (setCfg c s).uart = s.uart := rfl
@[simp] theorem setCfg_i2c (c : SpiReg) : (setCfg c s).i2c = s.i2c := rfl
@[simp] theorem setCfg_spi_en (c : SpiReg) : (setCfg c s).spi.en = s.spi.en := rfl
@[simp] theorem setCfg_spi_lock (c : SpiReg) : (setCfg c s).spi.lock = s.spi.lock := rfl
@[simp] theorem setCfg_spi_cfg (c : SpiReg) : (setCfg c s).spi.cfg = c := rfl
@[simp] theorem setCfg_spi_saved (c : SpiReg) : (setCfg c s).spi.saved = s.spi.saved := rfl
@[simp] theorem setCfg_spi_irqMode (c : SpiReg) : (setCfg c s).spi.irqMode = s.spi.irqMode := rfl
@[simp] theorem setCfg_spi_irqSrc (c : SpiReg) : (setCfg c s).spi.irqSrc = s.spi.irqSrc := rfl
@[simp] theorem setCfg_spi_masked (c : SpiReg) : (setCfg c s).spi.masked = s.spi.masked := rfl
@[simp] theorem setCfg_spi_maskedSrc (c : SpiReg) : (setCfg c s).spi.maskedSrc = s.spi.maskedSrc := rfl
@[simp] theorem setCfg_out (c : SpiReg) : (setCfg c s).out = s.out := rfl
@[simp] theorem setCfg_env (c : SpiReg) : (setCfg c s).env = s.env := rfl
@[simp] theorem setCfg_params (c : SpiReg) : (setCfg c s).params = s.params := rfl

/-! ### `issueStop` -/

@[simp] theorem issueStop_sys : (issueStop s).sys = s.sys := rfl
@[simp] theorem issueStop_uart : (issueStop s).uart = s.uart := rfl
@[simp] theorem issueStop_i2c_itx : (issueStop s).i2c.itx = s.i2c.itx := rfl
@[simp] theorem issueStop_i2c_irx : (issueStop s).i2c.irx = s.i2c.irx := rfl
@[simp] theorem issueStop_i2c_en : (issueStop s).i2c.en = s.i2c.en := rfl
@[simp] theorem issueStop_i2c_mode : (issueStop s).i2c.mode = s.i2c.mode := rfl
@[simp] theorem issueStop_i2c_own : (issueStop s).i2c.own = s.i2c.own := rfl
@[simp] theorem issueStop_i2c_own10 : (issueStop s).i2c.own10 = s.i2c.own10 := rfl
@[simp] theorem issueStop_i2c_savedMode : (issueStop s).i2c.savedMode = s.i2c.savedMode := rfl
@[simp] theorem issueStop_i2c_role : (issueStop s).i2c.role = s.i2c.role := rfl
@[simp] theorem issueStop_i2c_err : (issueStop s).i2c.err = s.i2c.err := rfl
@[simp] theorem issueStop_i2c_target : (issueStop s).i2c.target = s.i2c.target := rfl
@[simp] theorem issueStop_i2c_target10 : (issueStop s).i2c.target10 = s.i2c.target10 := rfl
@[simp] theorem issueStop_i2c_phase : (issueStop s).i2c.phase = s.i2c.phase := rfl
@[simp] theorem issueStop_i2c_expect : (issueStop s).i2c.expect = s.i2c.expect := rfl
@[simp] theorem issueStop_i2c_got : (issueStop s).i2c.got = s.i2c.got := rfl
@[simp] theorem issueStop_i2c_stp : (issueStop s).i2c.stp = true := rfl
@[simp] theorem issueStop_i2c_t0 : (issueStop s).i2c.t0 = s.i2c.t0 := rfl
@[simp] theorem issueStop_i2c_cbReq : (issueStop s).i2c.cbReq = s.i2c.cbReq := rfl
@[simp] theorem issueStop_i2c_cbRcv : (issueStop s).i2c.cbRcv = s.i2c.cbRcv := rfl
@[simp] theorem issueStop_spi : (issueStop s).spi = s.spi := rfl
@[simp] theorem issueStop_out_trace : (issueStop s).out.trace = s.out.trace ++ [encode .oIStop] := rfl
@[simp] theorem issueStop_out_answers : (issueStop s).out.answers = s.out.answers := rfl
@[simp] theorem issueStop_out_evtIll : (issueStop s).out.evtIll = s.out.evtIll := rfl
@[simp] theorem issueStop_env : (issueStop s).env = s.env := rfl
@[simp] theorem issueStop_params : (issueStop s).params = s.params := rfl

/-! ### `newTarget` -/

@[simp] theorem newTarget_sys (ten : Bool) (addr : I2cAddr) : (newTarget ten addr s).sys = s.sys := rfl
@[simp] theorem newTarget_uart (ten : Bool) (addr : I2cAddr) : (newTarget ten addr s).uart = s.uart := rfl
@[simp] theorem newTarget_i2c_itx (ten : Bool) (addr : I2cAddr) : (newTarget ten addr s).i2c.itx = s.i2c.itx := rfl
@[simp] theorem newTarget_i2c_irx (ten : Bool) (addr : I2cAddr) : (newTarget ten addr s).i2c.irx = s.i2c.irx := rfl
@[simp] theorem newTarget_i2c_en (ten : Bool) (addr : I2cAddr) : (newTarget ten addr s).i2c.en = s.i2c.en := rfl
@[simp] theorem newTarget_i2c_mode (ten : Bool) (addr : I2cAddr) : (newTarget ten addr s).i2c.mode = s.i2c.mode := rfl
@[simp] theorem newTarget_i2c_own (ten : Bool) (addr : I2cAddr) : (newTarget ten addr s).i2c.own = s.i2c.own := rfl
@[simp] theorem newTarget_i2c_own10 (ten : Bool) (addr : I2cAddr) : (newTarget ten addr s).i2c.own10 = s.i2c.own10 := rfl
@[simp] theorem newTarget_i2c_savedMode (ten : Bool) (addr : I2cAddr) : (newTarget ten addr s).i2c.savedMode = s.i2c.savedMode := rfl
@[simp] theorem newTarget_i2c_role (ten : Bool) (addr : I2cAddr) : (newTarget ten addr s).i2c.role = .idle := rfl
@[simp] theorem newTarget_i2c_err (ten : Bool) (addr : I2cAddr) : (newTarget ten addr s).i2c.err = .none := rfl
@[simp] theorem newTarget_i2c_target (ten : Bool) (addr : I2cAddr) : (newTarget ten addr s).i2c.target = addr := rfl
@[simp] theorem newTarget_i2c_target10 (ten : Bool) (addr : I2cAddr) : (newTarget ten addr s).i2c.target10 = ten := rfl
@[simp] theorem newTarget_i2c_phase (ten : Bool) (addr : I2cAddr) : (newTarget ten addr s).i2c.phase = s.i2c.phase := rfl
@[simp] theorem newTarget_i2c_expect (ten : Bool) (addr : I2cAddr) : (newTarget ten addr s).i2c.expect = s.i2c.expect := rfl
@[simp] theorem newTarget_i2c_got (ten : Bool) (addr : I2cAddr) : (newTarget ten addr s).i2c.got = s.i2c.got := rfl
@[simp] theorem newTarget_i2c_stp (ten : Bool) (addr : I2cAddr) : (newTarget ten addr s).i2c.stp = s.i2c.stp := rfl
@[simp] theorem newTarget_i2c_t0 (ten : Bool) (addr : I2cAddr) : (newTarget ten addr s).i2c.t0 = s.i2c.t0 := rfl
@[simp] theorem newTarget_i2c_cbReq (ten : Bool) (addr : I2cAddr) : (newTarget ten addr s).i2c.cbReq = s.i2c.cbReq := rfl
@[simp] theorem newTarget_i2c_cbRcv (ten : Bool) (addr : I2cAddr) : (newTarget ten addr s).i2c.cbRcv = s.i2c.cbRcv := rfl
@[simp] theorem newTarget_spi (ten : Bool) (addr : I2cAddr) : (newTarget ten addr s).spi = s.spi := rfl
@[simp] theorem newTarget_out (ten : Bool) (addr : I2cAddr) : (newTarget ten addr s).out = s.out := rfl
@[simp] theorem newTarget_env (ten : Bool) (addr : I2cAddr) : (newTarget ten addr s).env = s.env := rfl
@[simp] theorem newTarget_params (ten : Bool) (addr : I2cAddr) : (newTarget ten addr s).params = s.params := rfl

/-! ### `transmit` -/

@[simp] theorem transmit_sys (v : Byte) : (transmit v s).sys = s.sys := rfl
@[simp] theorem transmit_uart_utx (v : Byte) : (transmit v s).uart.utx = s.uart.utx := rfl
@[simp] theorem transmit_uart_urx (v : Byte) : (transmit v s).uart.urx = s.uart.urx := rfl
@[simp] theorem transmit_uart_held (v : Byte) : (transmit v s).uart.held = s.uart.held := rfl
@[simp] theorem transmit_uart_rxie (v : Byte) : (transmit v s).uart.rxie = s.uart.rxie := rfl
@[simp] theorem transmit_uart_txie (v : Byte) : (transmit v s).uart.txie = s.uart.txie := rfl
@[simp] theorem transmit_uart_div (v : Byte) : (transmit v s).uart.div = s.uart.div := rfl
@[simp] theorem transmit_uart_txreg (v : Byte) : (transmit v s).uart.txreg = .holds v := rfl
@[simp] theorem transmit_uart_bits7 (v : Byte) : (transmit v s).uart.bits7 = s.uart.bits7 := rfl
@[simp] theorem transmit_uart_stop2 (v : Byte) : (transmit v s).uart.stop2 = s.uart.stop2 := rfl
@[simp] theorem transmit_uart_parity (v : Byte) : (transmit v s).uart.parity = s.uart.parity := rfl
@[simp] theorem transmit_uart_cbBrk (v : Byte) : (transmit v s).uart.cbBrk = s.uart.cbBrk := rfl
@[simp] theorem transmit_i2c (v : Byte) : (transmit v s).i2c = s.i2c := rfl
@[simp] theorem transmit_spi (v : Byte) : (transmit v s).spi = s.spi := rfl
@[simp] theorem transmit_out_trace (v : Byte) : (transmit v s).out.trace = s.out.trace ++ [encode (.oUTx v)] := rfl
@[simp] theorem transmit_out_answers (v : Byte) : (transmit v s).out.answers = s.out.answers := rfl
@[simp] theorem transmit_out_evtIll (v : Byte) : (transmit v s).out.evtIll = s.out.evtIll := rfl
@[simp] theorem transmit_env (v : Byte) : (transmit v s).env = s.env := rfl
@[simp] theorem transmit_params (v : Byte) : (transmit v s).params = s.params := rfl

/-! ### `endPulse` -/

@[simp] theorem endPulse_sys : (endPulse s).sys = s.sys := rfl
@[simp] theorem endPulse_uart : (endPulse s).uart = s.uart := rfl
@[simp] theorem endPulse_i2c : (endPulse s).i2c = s.i2c := rfl
@[simp] theorem endPulse_spi : (endPulse s).spi = s.spi := rfl
@[simp] theorem endPulse_out_trace : (endPulse s).out.trace = s.out.trace := rfl
@[simp] theorem endPulse_out_answers : (endPulse s).out.answers = s.out.answers := rfl
@[simp] theorem endPulse_out_evtIll : (endPulse s).out.evtIll = false := rfl
@[simp] theorem endPulse_env : (endPulse s).env = s.env := rfl
@[simp] theorem endPulse_params : (endPulse s).params = s.params := rfl

/-! ### `setRing .utx` -/

@[simp] theorem setRing_utx_sys (r : Ring) : (s.setRing .utx r).sys = s.sys := rfl
@[simp] theorem setRing_utx_i2c (r : Ring) : (s.setRing .utx r).i2c = s.i2c := rfl
@[simp] theorem setRing_utx_spi (r : Ring) : (s.setRing .utx r).spi = s.spi := rfl
@[simp] theorem setRing_utx_out (r : Ring) : (s.setRing .utx r).out = s.out := rfl
@[simp] theorem setRing_utx_env (r : Ring) : (s.setRing .utx r).env = s.env := rfl
@[simp] theorem setRing_utx_params (r : Ring) : (s.setRing .utx r).params = s.params := rfl
@[simp] theorem setRing_utx_uart_utx (r : Ring) : (s.setRing .utx r).uart.utx = r := rfl
@[simp] theorem setRing_utx_uart_urx (r : Ring) : (s.setRing .utx r).uart.urx = s.uart.urx := rfl
@[simp] theorem setRing_utx_uart_held (r : Ring) : (s.setRing .utx r).uart.held = s.uart.held := rfl
@[simp] theorem setRing_utx_uart_rxie (r : Ring) : (s.setRing .utx r).uart.rxie = s.uart.rxie := rfl
@[simp] theorem setRing_utx_uart_txie (r : Ring) : (s.setRing .utx r).uart.txie = s.uart.txie := rfl
@[simp] theorem setRing_utx_uart_div (r : Ring) : (s.setRing .utx r).uart.div = s.uart.div := rfl
@[simp] theorem setRing_utx_uart_txreg (r : Ring) : (s.setRing .utx r).uart.txreg = s.uart.txreg := rfl
@[simp] theorem setRing_utx_uart_bits7 (r : Ring) : (s.setRing .utx r).uart.bits7 = s.uart.bits7 := rfl
@[simp] theorem setRing_utx_uart_stop2 (r : Ring) : (s.setRing .utx r).uart.stop2 = s.uart.stop2 := rfl
@[simp] theorem setRing_utx_uart_parity (r : Ring) : (s.setRing .utx r).uart.parity = s.uart.parity := rfl
@[simp] theorem setRing_utx_uart_cbBrk (r : Ring) : (s.setRing .utx r).uart.cbBrk = s.uart.cbBrk := rfl

/-! ### `setRing .urx` -/

@[simp] theorem setRing_urx_sys (r : Ring) : (s.setRing .urx r).sys = s.sys := rfl
@[simp] theorem setRing_urx_i2c (r : Ring) : (s.setRing .urx r).i2c = s.i2c := rfl
@[simp] theorem setRing_urx_spi (r : Ring) : (s.setRing .urx r).spi = s.spi := rfl
@[simp] theorem setRing_urx_out (r : Ring) : (s.setRing .urx r).out = s.out := rfl
@[simp] theorem setRing_urx_env (r : Ring) : (s.setRing .urx r).env = s.env := rfl
@[simp] theorem setRing_urx_params (r : Ring) : (s.setRing .urx r).params = s.params := rfl
@[simp] theorem setRing_urx_uart_utx (r : Ring) : (s.setRing .urx r).uart.utx = s.uart.utx := rfl
@[simp] theorem setRing_urx_uart_urx (r : Ring) : (s.setRing .urx r).uart.urx = r := rfl
@[simp] theorem setRing_urx_uart_held (r : Ring) : (s.setRing .urx r).uart.held = s.uart.held := rfl
@[simp] theorem setRing_urx_uart_rxie (r : Ring) : (s.setRing .urx r).uart.rxie = s.uart.rxie := rfl
@[simp] theorem setRing_urx_uart_txie (r : Ring) : (s.setRing .urx r).uart.txie = s.uart.txie := rfl
@[simp] theorem setRing_urx_uart_div (r : Ring) : (s.setRing .urx r).uart.div = s.uart.div := rfl
@[simp] theorem setRing_urx_uart_txreg (r : Ring) : (s.setRing .urx r).uart.txreg = s.uart.txreg := rfl
@[simp] theorem setRing_urx_uart_bits7 (r : Ring) : (s.setRing .urx r).uart.bits7 = s.uart.bits7 := rfl
@[simp] theorem setRing_urx_uart_stop2 (r : Ring) : (s.setRing .urx r).uart.stop2 = s.uart.stop2 := rfl
@[simp] theorem setRing_urx_uart_parity (r : Ring) : (s.setRing .urx r).uart.parity = s.uart.parity := rfl
@[simp] theorem setRing_urx_uart_cbBrk (r : Ring) : (s.setRing .urx r).uart.cbBrk = s.uart.cbBrk := rfl

/-! ### `setRing .itx` -/

@[simp] theorem setRing_itx_sys (r : Ring) : (s.setRing .itx r).sys = s.sys := rfl
@[simp] theorem setRing_itx_uart (r : Ring) : (s.setRing .itx r).uart = s.uart := rfl
@[simp] theorem setRing_itx_spi (r : Ring) : (s.setRing .itx r).spi = s.spi := rfl
@[simp] theorem setRing_itx_out (r : Ring) : (s.setRing .itx r).out = s.out := rfl
@[simp] theorem setRing_itx_env (r : Ring) : (s.setRing .itx r).env = s.env := rfl
@[simp] theorem setRing_itx_params (r : Ring) : (s.setRing .itx r).params = s.params := rfl
@[simp] theorem setRing_itx_i2c_itx (r : Ring) : (s.setRing .itx r).i2c.itx = r := rfl
@[simp] theorem setRing_itx_i2c_irx (r : Ring) : (s.setRing .itx r).i2c.irx = s.i2c.irx := rfl
@[simp] theorem setRing_itx_i2c_en (r : Ring) : (s.setRing .itx r).i2c.en = s.i2c.en := rfl
@[simp] theorem setRing_itx_i2c_mode (r : Ring) : (s.setRing .itx r).i2c.mode = s.i2c.mode := rfl
@[simp] theorem setRing_itx_i2c_own (r : Ring) : (s.setRing .itx r).i2c.own = s.i2c.own := rfl
@[simp] theorem setRing_itx_i2c_own10 (r : Ring) : (s.setRing .itx r).i2c.own10 = s.i2c.own10 := rfl
@[simp] theorem setRing_itx_i2c_savedMode (r : Ring) : (s.setRing .itx r).i2c.savedMode = s.i2c.savedMode := rfl
@[simp] theorem setRing_itx_i2c_role (r : Ring) : (s.setRing .itx r).i2c.role = s.i2c.role := rfl
@[simp] theorem setRing_itx_i2c_err (r : Ring) : (s.setRing .itx r).i2c.err = s.i2c.err := rfl
@[simp] theorem setRing_itx_i2c_target (r : Ring) : (s.setRing .itx r).i2c.target = s.i2c.target := rfl
@[simp] theorem setRing_itx_i2c_target10 (r : Ring) : (s.setRing .itx r).i2c.target10 = s.i2c.target10 := rfl
@[simp] theorem setRing_itx_i2c_phase (r : Ring) : (s.setRing .itx r).i2c.phase = s.i2c.phase := rfl
@[simp] theorem setRing_itx_i2c_expect (r : Ring) : (s.setRing .itx r).i2c.expect = s.i2c.expect := rfl
@[simp] theorem setRing_itx_i2c_got (r : Ring) : (s.setRing .itx r).i2c.got = s.i2c.got := rfl
@[simp] theorem setRing_itx_i2c_stp (r : Ring) : (s.setRing .itx r).i2c.stp = s.i2c.stp := rfl
@[simp] theorem setRing_itx_i2c_t0 (r : Ring) : (s.setRing .itx r).i2c.t0 = s.i2c.t0 := rfl
@[simp] theorem setRing_itx_i2c_cbReq (r : Ring) : (s.setRing .itx r).i2c.cbReq = s.i2c.cbReq := rfl
@[simp] theorem setRing_itx_i2c_cbRcv (r : Ring) : (s.setRing .itx r).i2c.cbRcv = s.i2c.cbRcv := rfl

/-! ### `setRing .irx` -/

@[simp] theorem setRing_irx_sys (r : Ring) : (s.setRing .irx r).sys = s.sys := rfl
@[simp] theorem setRing_irx_uart (r : Ring) : (s.setRing .irx r).uart = s.uart := rfl
@[simp] theorem setRing_irx_spi (r : Ring) : (s.setRing .irx r).spi = s.spi := rfl
@[simp] theorem setRing_irx_out (r : Ring) : (s.setRing .irx r).out = s.out := rfl
@[simp] theorem setRing_irx_env (r : Ring) : (s.setRing .irx r).env = s.env := rfl
@[simp] theorem setRing_irx_params (r : Ring) : (s.setRing .irx r).params = s.params := rfl
@[simp] theorem setRing_irx_i2c_itx (r : Ring) : (s.setRing .irx r).i2c.itx = s.i2c.itx := rfl
@[simp] theorem setRing_irx_i2c_irx (r : Ring) : (s.setRing .irx r).i2c.irx = r := rfl
@[simp] theorem setRing_irx_i2c_en (r : Ring) : (s.setRing .irx r).i2c.en = s.i2c.en := rfl
@[simp] theorem setRing_irx_i2c_mode (r : Ring) : (s.setRing .irx r).i2c.mode = s.i2c.mode := rfl
@[simp] theorem setRing_irx_i2c_own (r : Ring) : (s.setRing .irx r).i2c.own = s.i2c.own := rfl
@[simp] theorem setRing_irx_i2c_own10 (r : Ring) : (s.setRing .irx r).i2c.own10 = s.i2c.own10 := rfl
@[simp] theorem setRing_irx_i2c_savedMode (r : Ring) : (s.setRing .irx r).i2c.savedMode = s.i2c.savedMode := rfl
@[simp] theorem setRing_irx_i2c_role (r : Ring) : (s.setRing .irx r).i2c.role = s.i2c.role := rfl
@[simp] theorem setRing_irx_i2c_err (r : Ring) : (s.setRing .irx r).i2c.err = s.i2c.err := rfl
@[simp] theorem setRing_irx_i2c_target (r : Ring) : (s.setRing .irx r).i2c.target = s.i2c.target := rfl
@[simp] theorem setRing_irx_i2c_target10 (r : Ring) : (s.setRing .irx r).i2c.target10 = s.i2c.target10 := rfl
@[simp] theorem setRing_irx_i2c_phase (r : Ring) : (s.setRing .irx r).i2c.phase = s.i2c.phase := rfl
@[simp] theorem setRing_irx_i2c_expect (r : Ring) : (s.setRing .irx r).i2c.expect = s.i2c.expect := rfl
@[simp] theorem setRing_irx_i2c_got (r : Ring) : (s.setRing .irx r).i2c.got = s.i2c.got := rfl
@[simp] theorem setRing_irx_i2c_stp (r : Ring) : (s.setRing .irx r).i2c.stp = s.i2c.stp := rfl
@[simp] theorem setRing_irx_i2c_t0 (r : Ring) : (s.setRing .irx r).i2c.t0 = s.i2c.t0 := rfl
@[simp] theorem setRing_irx_i2c_cbReq (r : Ring) : (s.setRing .irx r).i2c.cbReq = s.i2c.cbReq := rfl
@[simp] theorem setRing_irx_i2c_cbRcv (r : Ring) : (s.setRing .irx r).i2c.cbRcv = s.i2c.cbRcv := rfl

/-! ### `setRing` in any space -/

@[simp] theorem setRing_sys (sp : Space) (r : Ring) : (s.setRing sp r).sys = s.sys := by cases sp <;> rfl
@[simp] theorem setRing_spi (sp : Space) (r : Ring) : (s.setRing sp r).spi = s.spi := by cases sp <;> rfl
@[simp] theorem setRing_out (sp : Space) (r : Ring) : (s.setRing sp r).out = s.out := by cases sp <;> rfl
@[simp] theorem setRing_env (sp : Space) (r : Ring) : (s.setRing sp r).env = s.env := by cases sp <;> rfl
@[simp] theorem setRing_params (sp : Space) (r : Ring) : (s.setRing sp r).params = s.params := by cases sp <;> rfl

@[simp] theorem ring_setRing (sp : Space) (r : Ring) : (s.setRing sp r).ring sp = r := by cases sp <;> rfl

theorem ring_setRing_other (sp sp' : Space) (r : Ring) (h : sp' ≠ sp) : (s.setRing sp r).ring sp' = s.ring sp' := by
  cases sp <;> cases sp' <;> first | rfl | exact absurd rfl h

@[simp] theorem modulus_setRing (sp sp' : Space) (r : Ring) : (s.setRing sp r).modulus sp' = s.modulus sp' := by
  cases sp <;> rfl

@[simp] theorem setRing_ring (sp : Space) : s.setRing sp (s.ring sp) = s := by cases sp <;> rfl

/-! ### Rings and readiness seen through the updates that write neither -/

@[simp] theorem ring_respond (v : Word) (sp : Space) : (respond v s).ring sp = s.ring sp := by cases sp <;> rfl
@[simp] theorem modulus_respond (v : Word) (sp : Space) : (respond v s).modulus sp = s.modulus sp := rfl
@[simp] theorem ring_raiseIllegal (c : IllCode) (sp : Space) : (raiseIllegal c s).ring sp = s.ring sp := by cases sp <;> rfl
@[simp] theorem modulus_raiseIllegal (c : IllCode) (sp : Space) : (raiseIllegal c s).modulus sp = s.modulus sp := rfl
@[simp] theorem ring_emit (e : Instr) (sp : Space) : (emit e s).ring sp = s.ring sp := by cases sp <;> rfl
@[simp] theorem modulus_emit (e : Instr) (sp : Space) : (emit e s).modulus sp = s.modulus sp := rfl
@[simp] theorem ring_setWait (w : Wait) (sp : Space) : (setWait w s).ring sp = s.ring sp := by cases sp <;> rfl
@[simp] theorem modulus_setWait (w : Wait) (sp : Space) : (setWait w s).modulus sp = s.modulus sp := rfl
@[simp] theorem ring_hold (w : Wait) (sp : Space) : (hold w s).ring sp = s.ring sp := by cases sp <;> rfl
@[simp] theorem modulus_hold (w : Wait) (sp : Space) : (hold w s).modulus sp = s.modulus sp := rfl
@[simp] theorem ring_openWindow (k : FrameKind) (sp : Space) : (openWindow k s).ring sp = s.ring sp := by cases sp <;> rfl
@[simp] theorem modulus_openWindow (k : FrameKind) (sp : Space) : (openWindow k s).modulus sp = s.modulus sp := rfl
@[simp] theorem ring_enterWindow (cb : CbKind) (info : Byte) (k : FrameKind) (sp : Space) : (enterWindow cb info k s).ring sp = s.ring sp := by cases sp <;> rfl
@[simp] theorem modulus_enterWindow (cb : CbKind) (info : Byte) (k : FrameKind) (sp : Space) : (enterWindow cb info k s).modulus sp = s.modulus sp := rfl
@[simp] theorem ring_popFrame (f : Frame) (rest : List Frame) (sp : Space) : (popFrame f rest s).ring sp = s.ring sp := by cases sp <;> rfl
@[simp] theorem modulus_popFrame (f : Frame) (rest : List Frame) (sp : Space) : (popFrame f rest s).modulus sp = s.modulus sp := rfl
@[simp] theorem ring_setGie (b : Bool) (sp : Space) : (setGie b s).ring sp = s.ring sp := by cases sp <;> rfl
@[simp] theorem modulus_setGie (b : Bool) (sp : Space) : (setGie b s).modulus sp = s.modulus sp := rfl
@[simp] theorem ring_setXie (src : Source) (val : Bool) (sp : Space) : (setXie src val s).ring sp = s.ring sp := by cases sp <;> rfl
@[simp] theorem modulus_setXie (src : Source) (val : Bool) (sp : Space) : (setXie src val s).modulus sp = s.modulus sp := rfl
@[simp] theorem ring_setRole (r : Role) (sp : Space) : (setRole r s).ring sp = s.ring sp := by cases sp <;> rfl
@[simp] theorem modulus_setRole (r : Role) (sp : Space) : (setRole r s).modulus sp = s.modulus sp := rfl
@[simp] theorem ring_setErr (e : I2cErr) (sp : Space) : (setErr e s).ring sp = s.ring sp := by cases sp <;> rfl
@[simp] theorem modulus_setErr (e : I2cErr) (sp : Space) : (setErr e s).modulus sp = s.modulus sp := rfl
@[simp] theorem ring_setCfg (c : SpiReg) (sp : Space) : (setCfg c s).ring sp = s.ring sp := by cases sp <;> rfl
@[simp] theorem modulus_setCfg (c : SpiReg) (sp : Space) : (setCfg c s).modulus sp = s.modulus sp := rfl
@[simp] theorem ring_issueStop (sp : Space) : (issueStop s).ring sp = s.ring sp := by cases sp <;> rfl
@[simp] theorem modulus_issueStop (sp : Space) : (issueStop s).modulus sp = s.modulus sp := rfl
@[simp] theorem ring_transmit (v : Byte) (sp : Space) : (transmit v s).ring sp = s.ring sp := by cases sp <;> rfl
@[simp] theorem modulus_transmit (v : Byte) (sp : Space) : (transmit v s).modulus sp = s.modulus sp := rfl
@[simp] theorem ring_newTarget (ten : Bool) (addr : I2cAddr) (sp : Space) : (newTarget ten addr s).ring sp = s.ring sp := by cases sp <;> rfl
@[simp] theorem modulus_newTarget (ten : Bool) (addr : I2cAddr) (sp : Space) : (newTarget ten addr s).modulus sp = s.modulus sp := rfl
@[simp] theorem ring_endPulse (sp : Space) : (endPulse s).ring sp = s.ring sp := by cases sp <;> rfl
@[simp] theorem modulus_endPulse (sp : Space) : (endPulse s).modulus sp = s.modulus sp := rfl

/-! ### The reset step -/

@[simp] theorem resetStep_sys : (resetStep s).sys = System.reset := rfl
@[simp] theorem resetStep_uart : (resetStep s).uart = Uart.reset := rfl
@[simp] theorem resetStep_i2c : (resetStep s).i2c = I2c.reset := rfl
@[simp] theorem resetStep_spi : (resetStep s).spi = Spi.reset := rfl
@[simp] theorem resetStep_out : (resetStep s).out = Outputs.reset := rfl
@[simp] theorem resetStep_env : (resetStep s).env = s.env := rfl
@[simp] theorem resetStep_params : (resetStep s).params = s.params := rfl

end Sys2Proof.Machine
end

