-- ==== Sys2Proof/Laws/Memory.lean ====
section
/-! SUPPORT. Ring storage: reading after a write, and the canonical form that every write keeps. -/

namespace Sys2Proof.Machine

/-- A read at the index just written gives the byte written. -/
@[simp] theorem Memory.at?_set_same (m : Memory) (i : Nat) (v : Byte) : (m.set i v).at? i = some v := by
  induction m with
  | nil => simp [Memory.set, Memory.at?]
  | cons c rest ih =>
    obtain ⟨a, w⟩ := c
    simp only [Memory.set]
    split
    · simp [Memory.at?]
    · split
      · simp [Memory.at?]
      · rename_i h
        simp [Memory.at?, Ne.symm h, ih]

/-- A write leaves every other index alone. -/
theorem Memory.at?_set_other (m : Memory) {i j : Nat} (v : Byte) (h : j ≠ i) : (m.set i v).at? j = m.at? j := by
  induction m with
  | nil => simp [Memory.set, Memory.at?, h.symm]
  | cons c rest ih =>
    obtain ⟨a, w⟩ := c
    simp only [Memory.set]
    split
    · simp [Memory.at?, h.symm]
    · split
      · rename_i _ hia
        subst hia
        simp [Memory.at?, h.symm]
      · simp [Memory.at?, ih]

/-- A read after a write, both cases at once. -/
theorem Memory.at?_set (m : Memory) (i j : Nat) (v : Byte) :
    (m.set i v).at? j = if j = i then some v else m.at? j := by
  split
  · subst j
    simp
  · exact m.at?_set_other v ‹_›

/-- The canonical form of a list with a first cell: the rest is canonical and above it. -/
theorem Memory.wf_cons (c : Host.Cell) (m : Memory) :
    Memory.wf (c :: m) = true ↔ Memory.wf m = true ∧ ∀ d, m.head? = some d → c.1 < d.1 := by
  cases m with
  | nil => simp [Memory.wf]
  | cons d rest => simp [Memory.wf, and_comm]

/-- The first index after a write is the written one or the old first one. -/
theorem Memory.head?_set (m : Memory) (i : Nat) (v : Byte) (d : Host.Cell) (h : (m.set i v).head? = some d) :
    d.1 = i ∨ ∃ c, m.head? = some c ∧ c.1 = d.1 := by
  cases m with
  | nil =>
    simp [Memory.set] at h
    exact .inl (by rw [← h])
  | cons c rest =>
    obtain ⟨a, w⟩ := c
    simp only [Memory.set] at h
    split at h
    · simp at h
      exact .inl (by rw [← h])
    · split at h <;> simp at h <;> subst h
      · exact .inl rfl
      · exact .inr ⟨_, rfl, rfl⟩

/-- A write keeps the canonical form. -/
theorem Memory.wf_set (m : Memory) (i : Nat) (v : Byte) (h : m.wf = true) : (m.set i v).wf = true := by
  induction m with
  | nil => rfl
  | cons c rest ih =>
    obtain ⟨a, w⟩ := c
    obtain ⟨hrest, hhead⟩ := (Memory.wf_cons _ _).1 h
    simp only [Memory.set]
    split
    · rename_i hlt
      exact (Memory.wf_cons _ _).2 ⟨h, by simpa using hlt⟩
    · split
      · rename_i _ hia
        subst hia
        exact (Memory.wf_cons _ _).2 ⟨hrest, hhead⟩
      · rename_i hnlt hne
        refine (Memory.wf_cons _ _).2 ⟨ih hrest, fun d hd => ?_⟩
        rcases Memory.head?_set rest i v d hd with h1 | ⟨c, hc, h1⟩
        · simp only
          omega
        · rw [← h1]
          exact hhead c hc

/-- The cells after a write are the written one and old ones. -/
theorem Memory.mem_set (m : Memory) (i : Nat) (v : Byte) (c : Host.Cell) (h : c ∈ m.set i v) :
    c = (i, v) ∨ c ∈ m := by
  induction m with
  | nil => simpa [Memory.set] using h
  | cons d rest ih =>
    obtain ⟨a, w⟩ := d
    simp only [Memory.set] at h
    split at h
    · simpa using h
    · split at h
      · simp at h
        rcases h with h | h
        · exact .inl h
        · exact .inr (by simp [h])
      · simp at h
        rcases h with h | h
        · exact .inr (by simp [h])
        · rcases ih h with h | h
          · exact .inl h
          · exact .inr (by simp [h])

/-- An index below every cell is unwritten. -/
theorem Memory.at?_eq_none_of_lt (m : Memory) (i : Nat) (h : ∀ c ∈ m, i < c.1) : m.at? i = none := by
  induction m with
  | nil => rfl
  | cons c rest ih =>
    have hc := h c (by simp)
    simp only [Memory.at?]
    rw [if_neg (by omega), ih fun d hd => h d (by simp [hd])]

/-- Every later cell of a canonical storage lies above the first. -/
theorem Memory.wf_lt (c : Host.Cell) (m : Memory) (h : Memory.wf (c :: m) = true) : ∀ d ∈ m, c.1 < d.1 := by
  induction m generalizing c with
  | nil => simp
  | cons d rest ih =>
    obtain ⟨hrest, hhead⟩ := (Memory.wf_cons _ _).1 h
    have hcd := hhead d rfl
    intro e he
    rcases List.mem_cons.1 he with rfl | he
    · exact hcd
    · exact hcd.trans (ih d hrest e he)

/-- `memRead`, whole: the byte of a written index inside the space. -/
theorem memRead_eq_ok {n : Nat} {m : Memory} {i : Nat} {v : Byte} :
    memRead n m i = .ok v ↔ i < n ∧ m.at? i = some v := by
  unfold memRead
  split
  · cases h : m.at? i <;> simp_all
  · simp_all

/-- `memWrite`, whole: inside the space, the storage with the byte set. -/
theorem memWrite_eq_ok {n : Nat} {m m' : Memory} {i : Nat} {v : Byte} :
    memWrite n m i v = .ok m' ↔ i < n ∧ m.set i v = m' := by
  unfold memWrite
  split <;> simp_all

end Sys2Proof.Machine
end

