-- ==== Sys2Proof/Laws/Ring.lean ====
section
/-! SUPPORT. What each ring primitive does when it answers, on one ring and on the ring of a space (R136 to R139, R228). -/

namespace Sys2Proof.Machine

/-! ### One ring -/

/-- `inc` stays in range. -/
theorem inc_lt {n i : Nat} (h : i < n) : inc n i < n := Nat.mod_lt _ (by omega)

/-- `push`, whole. -/
theorem Ring.push_eq_ok {n : Nat} {r r' : Ring} {b : Byte} :
    r.push n b = .ok r' ↔
      r.full n = false ∧ r.head < n ∧ r' = { r with buf := r.buf.set r.head b, head := inc n r.head } := by
  unfold Ring.push memWrite
  by_cases hf : r.full n = true
  · simp [hf]
  · by_cases hh : r.head < n
    · simp [hf, hh, eq_comm]
    · simp [hf, hh]

/-- `front`, whole. -/
theorem Ring.front_eq_ok {n : Nat} {r : Ring} {v : Byte} :
    r.front n = .ok v ↔ r.empty = false ∧ r.tail < n ∧ r.buf.at? r.tail = some v := by
  unfold Ring.front
  by_cases he : r.empty = true
  · simp [he]
  · simp [he, memRead_eq_ok]

/-- `pop`, whole. -/
theorem Ring.pop_eq_ok {n : Nat} {r r' : Ring} {v : Byte} :
    r.pop n = .ok (v, r') ↔
      r.empty = false ∧ r.tail < n ∧ r.buf.at? r.tail = some v ∧ r' = { r with tail := inc n r.tail } := by
  unfold Ring.pop
  cases h : r.front n with
  | ok w =>
    obtain ⟨h1, h2, h3⟩ := Ring.front_eq_ok.1 h
    simp [h1, h2, h3, eq_comm]
  | error f =>
    have hno : ¬ (r.empty = false ∧ r.tail < n ∧ r.buf.at? r.tail = some v) := fun hc => by
      rw [Ring.front_eq_ok.2 hc] at h
      cases h
    simp
    exact fun h1 h2 h3 => absurd ⟨h1, h2, h3⟩ hno

/-- The terminator write, whole. -/
theorem Ring.mark_eq_ok {n : Nat} {r r' : Ring} {v : Byte} :
    r.mark n v = .ok r' ↔ r.head < n ∧ r' = { r with buf := r.buf.set r.head v } := by
  unfold Ring.mark memWrite
  by_cases hh : r.head < n
  · simp [hh, eq_comm]
  · simp [hh]

@[simp] theorem Ring.clear_buf (r : Ring) : r.clear.buf = r.buf := rfl
@[simp] theorem Ring.clear_head (r : Ring) : r.clear.head = 0 := rfl
@[simp] theorem Ring.clear_tail (r : Ring) : r.clear.tail = 0 := rfl

/-- A cleared ring is empty. -/
@[simp] theorem Ring.clear_empty (r : Ring) : r.clear.empty = true := rfl

/-! ### The ring of a space -/

/-- `push` on a space, whole. -/
theorem pushTo_eq_ok {sp : Space} {b : Byte} {s t : State} :
    pushTo sp b s = .ok t ↔
      s.fullAt sp = false ∧ (s.ring sp).head < s.modulus sp
        ∧ t = s.setRing sp { s.ring sp with
            buf := (s.ring sp).buf.set (s.ring sp).head b, head := inc (s.modulus sp) (s.ring sp).head } := by
  unfold pushTo State.fullAt
  cases h : (s.ring sp).push (s.modulus sp) b with
  | ok r =>
    obtain ⟨h1, h2, rfl⟩ := Ring.push_eq_ok.1 h
    simp [h1, h2, eq_comm]
  | error f =>
    simp
    intro h1 h2
    rw [Ring.push_eq_ok.2 ⟨h1, h2, rfl⟩] at h
    cases h

/-- `pop` on a space, whole. -/
theorem popFrom_eq_ok {sp : Space} {v : Byte} {s t : State} :
    popFrom sp s = .ok (v, t) ↔
      s.emptyAt sp = false ∧ (s.ring sp).tail < s.modulus sp ∧ s.slotAt sp (s.ring sp).tail = some v
        ∧ t = s.setRing sp { s.ring sp with tail := inc (s.modulus sp) (s.ring sp).tail } := by
  unfold popFrom State.emptyAt State.slotAt
  cases h : (s.ring sp).pop (s.modulus sp) with
  | ok p =>
    obtain ⟨w, r⟩ := p
    obtain ⟨h1, h2, h3, rfl⟩ := Ring.pop_eq_ok.1 h
    simp [h1, h2, h3, eq_comm]
  | error f =>
    simp
    intro h1 h2 h3
    rw [Ring.pop_eq_ok.2 ⟨h1, h2, h3, rfl⟩] at h
    cases h

/-- `front` of a space, whole. -/
theorem frontOf_eq_ok {sp : Space} {v : Byte} {s : State} :
    frontOf sp s = .ok v ↔
      s.emptyAt sp = false ∧ (s.ring sp).tail < s.modulus sp ∧ s.slotAt sp (s.ring sp).tail = some v :=
  Ring.front_eq_ok

/-- The terminator write into a space, whole. -/
theorem markHead_eq_ok {sp : Space} {v : Byte} {s t : State} :
    markHead sp v s = .ok t ↔
      (s.ring sp).head < s.modulus sp
        ∧ t = s.setRing sp { s.ring sp with buf := (s.ring sp).buf.set (s.ring sp).head v } := by
  unfold markHead
  cases h : (s.ring sp).mark (s.modulus sp) v with
  | ok r =>
    obtain ⟨h1, rfl⟩ := Ring.mark_eq_ok.1 h
    simp [h1, eq_comm]
  | error f =>
    simp
    intro h1
    rw [Ring.mark_eq_ok.2 ⟨h1, rfl⟩] at h
    cases h

/-! ### Memory stays canonical -/

/-- Every ring primitive keeps the canonical form of the storage. -/
theorem Ring.push_keeps_canonical {n : Nat} {r r' : Ring} {b : Byte} (h : r.push n b = .ok r') (hw : r.buf.wf = true) :
    r'.buf.wf = true := by
  obtain ⟨-, -, rfl⟩ := Ring.push_eq_ok.1 h
  exact Memory.wf_set _ _ _ hw

theorem Ring.pop_keeps_canonical {n : Nat} {r r' : Ring} {v : Byte} (h : r.pop n = .ok (v, r')) (hw : r.buf.wf = true) :
    r'.buf.wf = true := by
  obtain ⟨-, -, -, rfl⟩ := Ring.pop_eq_ok.1 h
  exact hw

theorem Ring.mark_keeps_canonical {n : Nat} {r r' : Ring} {v : Byte} (h : r.mark n v = .ok r') (hw : r.buf.wf = true) :
    r'.buf.wf = true := by
  obtain ⟨-, rfl⟩ := Ring.mark_eq_ok.1 h
  exact Memory.wf_set _ _ _ hw

theorem Ring.clear_keeps_canonical (r : Ring) (hw : r.buf.wf = true) : r.clear.buf.wf = true := hw

/-- The four storages are canonical at reset. -/
theorem reset_memory_canonical (sp : Space) : (State.reset.ring sp).buf.wf = true := by cases sp <;> rfl

end Sys2Proof.Machine
end

