-- ==== Sys2Proof/Laws/Index.lean ====
section
/-! SUPPORT. Index arithmetic without the modulus (R131 to R135, R143): the forms `omega` can use. -/

namespace Sys2Proof.Machine

/-- `inc` without the modulus: the next index, or 0 after the last. -/
theorem inc_eq {n i : Nat} (h : i < n) : inc n i = if i + 1 = n then 0 else i + 1 := by
  unfold inc; split
  · rename_i h1; rw [h1, Nat.mod_self]
  · exact Nat.mod_eq_of_lt (by omega)

/-- `count` without the modulus. -/
theorem Ring.count_eq {n : Nat} {r : Ring} (hh : r.head < n) (ht : r.tail < n) :
    r.count n = if r.tail ≤ r.head then r.head - r.tail else n + r.head - r.tail := by
  unfold Ring.count; split
  · rw [show n + r.head - r.tail = (r.head - r.tail) + n by omega, Nat.add_mod_right]; exact Nat.mod_eq_of_lt (by omega)
  · exact Nat.mod_eq_of_lt (by omega)

/-- The slot of the `k`-th oldest byte without the modulus. -/
theorem Ring.slot_eq {n k : Nat} {r : Ring} (ht : r.tail < n) (hk : k < n) :
    r.slot n k = if r.tail + k < n then r.tail + k else r.tail + k - n := by
  unfold Ring.slot; split
  · exact Nat.mod_eq_of_lt ‹_›
  · rw [Nat.mod_eq_sub_mod (by omega)]; exact Nat.mod_eq_of_lt (by omega)

/-- A ring is full exactly at the capacity `N - 1`. -/
theorem Ring.full_iff {n : Nat} {r : Ring} (hh : r.head < n) (ht : r.tail < n) : r.full n = true ↔ r.count n = n - 1 := by
  simp only [Ring.full, beq_iff_eq]; rw [Ring.count_eq hh ht, inc_eq hh]; split <;> split <;> omega

/-- A ring is not full exactly below the capacity. -/
theorem Ring.full_eq_false_iff {n : Nat} {r : Ring} (hh : r.head < n) (ht : r.tail < n) : r.full n = false ↔ r.count n ≠ n - 1 := by
  rw [← Bool.not_eq_true, Ring.full_iff hh ht]

/-- A ring is empty exactly at count 0. -/
theorem Ring.empty_iff {n : Nat} {r : Ring} (hh : r.head < n) (ht : r.tail < n) : r.empty = true ↔ r.count n = 0 := by
  simp only [Ring.empty, beq_iff_eq]; rw [Ring.count_eq hh ht]; split <;> omega

/-- A ring is not empty exactly at a count above 0. -/
theorem Ring.empty_eq_false_iff {n : Nat} {r : Ring} (hh : r.head < n) (ht : r.tail < n) : r.empty = false ↔ r.count n ≠ 0 := by
  rw [← Bool.not_eq_true, Ring.empty_iff hh ht]

/-- A count stays below the modulus. -/
theorem Ring.count_lt {n : Nat} {r : Ring} (hh : r.head < n) (_ht : r.tail < n) : r.count n < n :=
  Nat.mod_lt _ (Nat.zero_lt_of_lt hh)

/-- Advancing `head` of a ring that is not full counts one more. -/
theorem Ring.count_of_push {n : Nat} {r r' : Ring} (hh : r.head < n) (ht : r.tail < n) (hf : r.full n = false)
    (h1 : r'.head = inc n r.head) (h2 : r'.tail = r.tail) : r'.count n = r.count n + 1 := by
  have hf' := (Ring.full_eq_false_iff hh ht).1 hf
  have := inc_lt hh
  rw [Ring.count_eq (by omega) (by omega), h1, h2]
  rw [Ring.count_eq hh ht] at *
  rw [inc_eq hh]
  split at hf' <;> split <;> split <;> omega

/-- Advancing `tail` of a ring that is not empty counts one less. -/
theorem Ring.count_of_pop {n : Nat} {r r' : Ring} (hh : r.head < n) (ht : r.tail < n) (hf : r.empty = false)
    (h1 : r'.head = r.head) (h2 : r'.tail = inc n r.tail) : r'.count n + 1 = r.count n := by
  have hf' := (Ring.empty_eq_false_iff hh ht).1 hf
  have := inc_lt ht
  rw [Ring.count_eq (by omega) (by omega), h1, h2]
  rw [Ring.count_eq hh ht] at *
  rw [inc_eq ht]
  split at hf' <;> split <;> split <;> omega

/-- The slot past the newest byte is the one `head` names. -/
theorem Ring.slot_count {n : Nat} {r : Ring} (hh : r.head < n) (ht : r.tail < n) : r.slot n (r.count n) = r.head := by
  have := Ring.count_lt hh ht
  rw [Ring.slot_eq ht this, Ring.count_eq hh ht]
  split <;> split <;> omega

/-- No byte of the contents lies in the slot `head` names. -/
theorem Ring.slot_ne_head {n k : Nat} {r : Ring} (hh : r.head < n) (ht : r.tail < n) (hk : k < r.count n) : r.slot n k ≠ r.head := by
  have := Ring.count_lt hh ht
  rw [Ring.slot_eq ht (by omega)]
  rw [Ring.count_eq hh ht] at hk
  split at hk <;> split <;> omega

/-- After `tail` advanced, the `k`-th oldest byte is the one that was the `k + 1`-th. -/
theorem Ring.slot_of_pop {n k : Nat} {r r' : Ring} (ht : r.tail < n) (hk : k + 1 < n) (h2 : r'.tail = inc n r.tail) : r'.slot n k = r.slot n (k+1) := by
  have := inc_lt ht
  rw [Ring.slot_eq (by omega) (by omega), Ring.slot_eq ht hk, h2, inc_eq ht]
  split <;> split <;> split <;> omega

end Sys2Proof.Machine
end

