-- ==== Sys2Proof/Laws/Ops.lean ====
section
/-! SUPPORT. The shared operations, each said once: what a command, an event, a fallible step and the return from a window
come to when they answer a next state. -/

namespace Sys2Proof.Machine

/-- Writing the wait `W_NONE` is the only way a frame becomes ready. -/
theorem cmdReady_iff (s : State) : s.cmdReady = true ↔ s.sys.ctx.top.wait = .none := by
  simp [State.cmdReady]

/-- A command answers next: it ran, or it was not accepted and nothing happened (R307). -/
theorem command_eq_next {s t : State} {body : Out State} :
    command s body = .next t ↔ (s.cmdReady = true ∧ body = .next t) ∨ (s.cmdReady = false ∧ t = s) := by
  unfold command
  cases s.cmdReady <;> simp [eq_comm]

/-- An accepted command is its body. -/
@[simp] theorem command_of_ready {s : State} {body : Out State} (h : s.cmdReady = true) : command s body = body := by
  simp [command, h]

/-- A command that finds the top frame waiting is not accepted. -/
@[simp] theorem command_of_waiting {s : State} {body : Out State} (h : s.cmdReady = false) :
    command s body = .next s := by
  simp [command, h]

/-- An event answers next: it ran, or it was not deliverable and nothing happened (R325). -/
theorem event_eq_next {s t : State} {d : Bool} {body : Out State} :
    event d s body = .next t ↔ (d = true ∧ body = .next t) ∨ (d = false ∧ t = s) := by
  unfold event
  cases d <;> simp [eq_comm]

/-- A deliverable event is its body. -/
@[simp] theorem event_of_deliverable {s : State} {body : Out State} : event true s body = body := rfl

/-- An event that is not deliverable is not accepted. -/
@[simp] theorem event_of_undeliverable {s : State} {body : Out State} : event false s body = .next s := rfl

/-- A fallible operation answers next exactly when it succeeded and what follows does. -/
theorem orFault_eq_next {α : Type} {x : Except Fault α} {k : α → Out State} {t : State} :
    orFault x k = .next t ↔ ∃ a, x = .ok a ∧ k a = .next t := by
  cases x <;> simp [orFault]

@[simp] theorem orFault_ok {α : Type} {a : α} {k : α → Out State} : orFault (.ok a) k = k a := rfl

@[simp] theorem orFault_error {α : Type} {f : Fault} {k : α → Out State} : orFault (.error f) k = .fault f := rfl

/-- Return from a window: the frame below is the top again, interrupts are enabled, the post-action is done (R330). -/
theorem leaveWindow_eq_some {s t : State} :
    leaveWindow s = some t ↔
      ∃ f rest, s.sys.ctx.below = f :: rest ∧ t = windowPost s.sys.ctx.top.kind (popFrame f rest s) := by
  unfold leaveWindow
  cases s.sys.ctx.below with
  | nil => simp
  | cons f rest => simp [eq_comm]

/-- Foreground has nothing to return to. -/
theorem leaveWindow_eq_none {s : State} : leaveWindow s = none ↔ s.sys.ctx.depth = 0 := by
  unfold leaveWindow Ctx.depth
  cases s.sys.ctx.below <;> simp

/-- The post-action emits at most one NACK and writes nothing else. -/
theorem windowPost_cases (k : FrameKind) (s : State) :
    (k = .cbReq ∧ s.emptyAt .itx = true ∧ windowPost k s = emit .oINack s)
      ∨ ((k ≠ .cbReq ∨ s.emptyAt .itx = false) ∧ windowPost k s = s) := by
  unfold windowPost
  cases k <;> simp
  cases s.emptyAt .itx <;> simp

/-- Taking the next presentation changes only the environment. -/
theorem nextStimulus_keeps (s : State) :
    ∃ e, (nextStimulus s).2 = { s with env := e } := by
  unfold nextStimulus
  split <;> exact ⟨_, rfl⟩

end Sys2Proof.Machine
end

