-- ==== Sys2Proof/Laws/PerInstr.lean ====
section
/-! SUPPORT. The per-instruction family `RowMatch`: what the encoder writes for an instruction has the fixed bits of its row of
spec/opcode_table.json, whatever its operands (R103, R112 step 3). -/

namespace Sys2Proof.Laws.RowMatch

/-- The word of an instruction, under its row's mask, is its row's match. -/
def Statement (i : Instr) : Prop := encode i &&& rowMask i = rowMatch i

theorem sysGetstat : Statement (.sysGetstat) := rfl
theorem sysEint : Statement (.sysEint) := rfl
theorem sysDint : Statement (.sysDint) := rfl
theorem sysXie (src : Source) (val : Bool) : Statement (.sysXie src val) :=
  (word_and 0x03#8 0xFF#8 (argX src val) 0xFFFE00#24).trans (by rw [argX_reserved]; rfl)
theorem sysGetxie : Statement (.sysGetxie) := rfl
theorem sysIret : Statement (.sysIret) := rfl
theorem uBegin (rate : BitVec 24) : Statement (.uBegin rate) :=
  (word_and 0x10#8 0xFF#8 rate 0#24).trans (by simp; rfl)
theorem uEnd : Statement (.uEnd) := rfl
theorem uWrite (byte : Byte) : Statement (.uWrite byte) :=
  (word_and 0x12#8 0xFF#8 (argB byte) 0xFFFF00#24).trans (by rw [argB_reserved]; rfl)
theorem uRead : Statement (.uRead) := rfl
theorem uPeek : Statement (.uPeek) := rfl
theorem uAvail : Statement (.uAvail) := rfl
theorem uFlush : Statement (.uFlush) := rfl
theorem uSet7bit (flag : Bool) : Statement (.uSet7bit flag) :=
  (word_and 0x17#8 0xFF#8 (argF1 flag) 0xFFFFFE#24).trans (by rw [argF1_reserved]; rfl)
theorem uSetstop (flag : Bool) : Statement (.uSetstop flag) :=
  (word_and 0x18#8 0xFF#8 (argF1 flag) 0xFFFFFE#24).trans (by rw [argF1_reserved]; rfl)
theorem uSetparity (sel : Parity) : Statement (.uSetparity sel) :=
  (word_and 0x19#8 0xFF#8 (argF2 sel.code) 0xFFFFFC#24).trans (by rw [argF2_reserved]; rfl)
theorem uSendbreak : Statement (.uSendbreak) := rfl
theorem uAttachbrk : Statement (.uAttachbrk) := rfl
theorem uDetachbrk : Statement (.uDetachbrk) := rfl
theorem uCaps : Statement (.uCaps) := rfl
theorem uGetstat : Statement (.uGetstat) := rfl
theorem iBegin (slave ten : Bool) (addr : I2cAddr) : Statement (.iBegin slave ten addr) :=
  (word_and 0x20#8 0xFF#8 (argAS slave ten addr) 0xFFF000#24).trans (by rw [argAS_reserved]; rfl)
theorem iEnd : Statement (.iEnd) := rfl
theorem iBegintx (ten : Bool) (addr : I2cAddr) : Statement (.iBegintx ten addr) :=
  (word_and 0x22#8 0xFF#8 (argA ten addr) 0xFFF800#24).trans (by rw [argA_reserved]; rfl)
theorem iWrite (byte : Byte) : Statement (.iWrite byte) :=
  (word_and 0x23#8 0xFF#8 (argB byte) 0xFFFF00#24).trans (by rw [argB_reserved]; rfl)
theorem iEndtx : Statement (.iEndtx) := rfl
theorem iReqfrom (count : Byte) (ten : Bool) (addr : I2cAddr) : Statement (.iReqfrom count ten addr) :=
  (word_and 0x25#8 0xFF#8 (argAQ count ten addr) 0x00F800#24).trans (by rw [argAQ_reserved]; rfl)
theorem iRead : Statement (.iRead) := rfl
theorem iPeek : Statement (.iPeek) := rfl
theorem iAvail : Statement (.iAvail) := rfl
theorem iOnreceive (flag : Bool) : Statement (.iOnreceive flag) :=
  (word_and 0x29#8 0xFF#8 (argF1 flag) 0xFFFFFE#24).trans (by rw [argF1_reserved]; rfl)
theorem iOnrequest (flag : Bool) : Statement (.iOnrequest flag) :=
  (word_and 0x2A#8 0xFF#8 (argF1 flag) 0xFFFFFE#24).trans (by rw [argF1_reserved]; rfl)
theorem iGetstat : Statement (.iGetstat) := rfl
theorem sBegin : Statement (.sBegin) := rfl
theorem sEnd : Statement (.sEnd) := rfl
theorem sBegintrans (settings : SpiSettings) : Statement (.sBegintrans settings) :=
  (word_and 0x32#8 0xFF#8 (argS settings) 0xF80000#24).trans (by rw [argS_reserved]; rfl)
theorem sEndtrans : Statement (.sEndtrans) := rfl
theorem sXfer (byte : Byte) : Statement (.sXfer byte) :=
  (word_and 0x34#8 0xFF#8 (argB byte) 0xFFFF00#24).trans (by rw [argB_reserved]; rfl)
theorem sXfer16 (half : BitVec 16) : Statement (.sXfer16 half) :=
  (word_and 0x35#8 0xFF#8 (argH half) 0xFF0000#24).trans (by rw [argH_reserved]; rfl)
theorem sXfer9 (nine : BitVec 9) : Statement (.sXfer9 nine) :=
  (word_and 0x36#8 0xFF#8 (argW9 nine) 0xFFFE00#24).trans (by rw [argW9_reserved]; rfl)
theorem sSetdiv (half : BitVec 16) : Statement (.sSetdiv half) :=
  (word_and 0x37#8 0xFF#8 (argH half) 0xFF0000#24).trans (by rw [argH_reserved]; rfl)
theorem sSetorder (flag : Bool) : Statement (.sSetorder flag) :=
  (word_and 0x38#8 0xFF#8 (argF1 flag) 0xFFFFFE#24).trans (by rw [argF1_reserved]; rfl)
theorem sSetmode (mode : BitVec 2) : Statement (.sSetmode mode) :=
  (word_and 0x39#8 0xFF#8 (argF2 mode) 0xFFFFFC#24).trans (by rw [argF2_reserved]; rfl)
theorem sUsingint (irqmode : IrqMode) (src : Source) : Statement (.sUsingint irqmode src) :=
  (word_and 0x3A#8 0xFF#8 (argI irqmode src) 0xFFFC00#24).trans (by rw [argI_reserved]; rfl)
theorem sGetcfg : Statement (.sGetcfg) := rfl
theorem evTick : Statement (.evTick) := rfl
theorem evXint (src : Source) : Statement (.evXint src) :=
  (word_and 0x81#8 0xFF#8 (argB src) 0xFFFF00#24).trans (by rw [argB_reserved]; rfl)
theorem evUTxrdy : Statement (.evUTxrdy) := rfl
theorem evURxrdy (byte : Byte) : Statement (.evURxrdy byte) :=
  (word_and 0x91#8 0xFF#8 (argB byte) 0xFFFF00#24).trans (by rw [argB_reserved]; rfl)
theorem evUBreak : Statement (.evUBreak) := rfl
theorem evIData (byte : Byte) : Statement (.evIData byte) :=
  (word_and 0xA0#8 0xFF#8 (argB byte) 0xFFFF00#24).trans (by rw [argB_reserved]; rfl)
theorem evICtrl (cause : CtrlCause) (dir : Bool) : Statement (.evICtrl cause dir) :=
  (word_and 0xA1#8 0xFF#8 (argC cause dir) 0xFFFFE0#24).trans (by rw [argC_reserved]; rfl)
theorem evIAddrack : Statement (.evIAddrack) := rfl
theorem evIStopdone : Statement (.evIStopdone) := rfl
theorem oCb (kind : CbKind) (info : Byte) : Statement (.oCb kind info) :=
  (word_and 0xC0#8 0xFF#8 (argCb kind info) 0xFF00FC#24).trans (by rw [argCb_reserved]; rfl)
theorem oUTx (byte : Byte) : Statement (.oUTx byte) :=
  (word_and 0xD0#8 0xFF#8 (argB byte) 0xFFFF00#24).trans (by rw [argB_reserved]; rfl)
theorem oIStart (rw ten : Bool) (addr : I2cAddr) : Statement (.oIStart rw ten addr) :=
  (word_and 0xE0#8 0xFF#8 (argAS rw ten addr) 0xFFF000#24).trans (by rw [argAS_reserved]; rfl)
theorem oITx (byte : Byte) : Statement (.oITx byte) :=
  (word_and 0xE1#8 0xFF#8 (argB byte) 0xFFFF00#24).trans (by rw [argB_reserved]; rfl)
theorem oIStop : Statement (.oIStop) := rfl
theorem oINack : Statement (.oINack) := rfl
theorem oSXfer (len : XferLen) (mode : BitVec 2) (order : Bool) (value : BitVec 16) :
    Statement (.oSXfer len mode order value) :=
  (word_and 0xF0#8 0xFF#8 (argXfer len mode order value) 0xE00000#24).trans (by rw [argXfer_reserved]; rfl)

end Sys2Proof.Laws.RowMatch
end

