-- ==== Sys2Proof/Laws/Step.lean ====
section
/-! SUPPORT. What one step can come to, said once, and the other operations the meanings share (R10, R163, R219, R262, R264,
R306, R311). -/

namespace Sys2Proof.Machine

/-- `queueTx`, whole. -/
theorem queueTx_eq_ok {b : Byte} {s t : State} :
    queueTx b s = .ok t ↔
      s.fullAt .utx = false ∧ (s.ring .utx).head < s.modulus .utx
        ∧ t = { s with
          uart.utx := { s.uart.utx with
            buf := s.uart.utx.buf.set s.uart.utx.head b, head := inc s.params.nUtx s.uart.utx.head },
          uart.txie := true } := by
  unfold queueTx
  cases h : pushTo .utx b s with
  | ok r =>
    obtain ⟨h1, h2, rfl⟩ := pushTo_eq_ok.1 h
    simp only [h1, h2, Except.ok.injEq, true_and]
    exact eq_comm
  | error f =>
    simp
    intro h1 h2
    rw [pushTo_eq_ok.2 ⟨h1, h2, rfl⟩] at h
    cases h

/-- The state an instruction or a resolution runs in: the environment has moved on and the EVT_ILL pulse is over. -/
def State.presented (s : State) (e : Environment) : State := { s with env := e, out.evtIll := false }

/-- Everything a step that has a next state did: reset, an instruction of the CMD port, the rejection of a CMD word (or
nothing, when the top frame waits), an instruction of the EVT port, the dropping of an EVT word, a wait resolution. -/
theorem step_cases {s t : State} (h : step s = .next t) :
    (∃ e, s.nextIn = .rst ∧ t = { State.initial s.params with env := e })
      ∨ (∃ e i w m, s.nextIn = .cmd w m ∧ decodeCmd s.params.nsrc w = .ok i ∧ exec i (s.presented e) = .next t)
      ∨ (∃ e c w m, s.nextIn = .cmd w m ∧ decodeCmd s.params.nsrc w = .error c
          ∧ command (s.presented e) (.next (raiseIllegal c (s.presented e))) = .next t)
      ∨ (∃ e i w, s.nextIn = .evt w ∧ decodeEvt s.params.nsrc w = some i ∧ exec i (s.presented e) = .next t)
      ∨ (∃ e w, s.nextIn = .evt w ∧ decodeEvt s.params.nsrc w = none ∧ t = { s with env := e, out.evtIll := true })
      ∨ (∃ e, s.nextIn = .resolve ∧ resolveTop (s.presented e) = .next t) := by
  obtain ⟨e, he⟩ := nextStimulus_keeps s
  unfold step fetch at h
  rw [he] at h
  unfold State.nextIn
  cases hn : (nextStimulus s).1 with
  | rst =>
    rw [hn] at h
    simp only [present, endPulse, Host.Outcome.next.injEq] at h
    exact .inl ⟨_, rfl, h.symm⟩
  | cmd w m =>
    rw [hn] at h
    simp only [present, endPulse, presentCmd] at h
    cases hd : decodeCmd s.params.nsrc w with
    | ok i => rw [hd] at h; exact .inr (.inl ⟨_, i, w, m, rfl, hd, h⟩)
    | error c => rw [hd] at h; exact .inr (.inr (.inl ⟨_, c, w, m, rfl, hd, h⟩))
  | evt w =>
    rw [hn] at h
    simp only [present, endPulse, presentEvt] at h
    cases hd : decodeEvt s.params.nsrc w with
    | some i => rw [hd] at h; exact .inr (.inr (.inr (.inl ⟨_, i, w, rfl, hd, h⟩)))
    | none =>
      rw [hd] at h
      simp only [Host.Outcome.next.injEq] at h
      exact .inr (.inr (.inr (.inr (.inl ⟨_, w, rfl, hd, h.symm⟩))))
  | resolve =>
    rw [hn] at h
    simp only [present, endPulse] at h
    exact .inr (.inr (.inr (.inr (.inr ⟨_, rfl, h⟩))))

/-- Return from a window, its post-action included: at most the NACK of R229 goes out. -/
theorem leaveWindow_cases {s t : State} (h : leaveWindow s = some t) :
    ∃ f rest, s.sys.ctx.below = f :: rest
      ∧ (t = { s with sys.gie := true, sys.ctx := ⟨f, rest⟩ }
        ∨ t = emit .oINack { s with sys.gie := true, sys.ctx := ⟨f, rest⟩ }) := by
  obtain ⟨f, rest, h1, h2⟩ := leaveWindow_eq_some.1 h
  refine ⟨f, rest, h1, ?_⟩
  rcases windowPost_cases s.sys.ctx.top.kind (popFrame f rest s) with ⟨-, -, h3⟩ | ⟨-, h3⟩
  · exact .inr (by rw [h2, h3]; rfl)
  · exact .inl (by rw [h2, h3]; rfl)

/-- The bits of one source's enable. -/
theorem getLsbD_sourceBit (src : Source) (i : Nat) : (sourceBit src).getLsbD i = decide (i < 32 ∧ i = src.toNat) := by
  simp only [sourceBit, BitVec.getLsbD_shiftLeft, BitVec.getLsbD_one]
  by_cases h : i < 32 <;> simp [h]
  rw [Bool.eq_iff_iff]
  simp
  omega

/-! ### Waits that never end (R368, R369) -/

@[simp] theorem countRx_uart (s : State) : (countRx s).uart = s.uart := by
  dsimp only [countRx]
  (repeat' split) <;> rfl

/-- A hang of R368 and R369. While the top frame waits and `EV_U_TXRDY` is not deliverable (`gie`, `u_txie` or `u_held`
forbids it), no instruction moves `utx`, so a full ring stays full. -/
theorem waiting_keeps_utx {i : Instr} {s t : State} (h : exec i s = .next t) (hw : s.cmdReady = false)
    (hd : s.txReady = false) : t.uart.utx = s.uart.utx := by
  cases i
  case evUTxrdy =>
    simp only [exec, execEvUTxrdy, hd, event_of_undeliverable, Host.Outcome.next.injEq] at h
    rw [← h]
  case evURxrdy b =>
    rcases event_eq_next.1 h with ⟨-, h⟩ | ⟨-, rfl⟩
    · split at h
      · cases h; rfl
      · obtain ⟨u, hu, hk⟩ := orFault_eq_next.1 h
        obtain ⟨-, -, rfl⟩ := pushTo_eq_ok.1 hu
        cases hk; rfl
    · rfl
  case evUBreak =>
    rcases event_eq_next.1 h with ⟨-, h⟩ | ⟨-, rfl⟩
    · split at h <;> cases h <;> rfl
    · rfl
  case evIAddrack =>
    rcases event_eq_next.1 h with ⟨-, h⟩ | ⟨-, rfl⟩
    · split at h <;> cases h <;> rfl
    · rfl
  case evIData b =>
    rcases event_eq_next.1 h with ⟨-, h⟩ | ⟨-, rfl⟩
    · split at h
      · cases h; rfl
      · simp only [dataMasterTx] at h
        split at h
        · cases h; rfl
        · obtain ⟨⟨v, u⟩, hu, hk⟩ := orFault_eq_next.1 h
          obtain ⟨-, -, -, rfl⟩ := popFrom_eq_ok.1 hu
          cases hk; rfl
      · simp only [dataMasterRx] at h
        split at h
        · cases h; rw [countRx_uart]
        · obtain ⟨u, hu, hk⟩ := orFault_eq_next.1 h
          obtain ⟨-, -, rfl⟩ := pushTo_eq_ok.1 hu
          cases hk; rw [countRx_uart]; rfl
      · simp only [dataSlaveTx] at h
        split at h
        · cases h; rfl
        · obtain ⟨⟨v, u⟩, hu, hk⟩ := orFault_eq_next.1 h
          obtain ⟨-, -, -, rfl⟩ := popFrom_eq_ok.1 hu
          cases hk; rfl
      · simp only [dataSlaveRx] at h
        split at h
        · cases h; rfl
        · obtain ⟨u, hu, hk⟩ := orFault_eq_next.1 h
          obtain ⟨-, -, rfl⟩ := pushTo_eq_ok.1 hu
          cases hk; rfl
    · rfl
  case evICtrl c d =>
    rcases event_eq_next.1 h with ⟨-, h⟩ | ⟨-, rfl⟩
    · cases c
      · cases h; rfl
      · simp only [ctrlNack] at h; split at h <;> cases h <;> rfl
      · simp only [ctrlStart] at h; (repeat' split at h) <;> cases h <;> rfl
      · simp only [ctrlStop] at h
        split at h
        · split at h
          · cases h; unfold endReception; split <;> rfl
          · obtain ⟨u, hu, hk⟩ := orFault_eq_next.1 h
            obtain ⟨-, rfl⟩ := markHead_eq_ok.1 hu
            cases hk; unfold endReception; split <;> rfl
        all_goals cases h; rfl
    · rfl
  all_goals first
    | (cases (command_of_waiting hw).symm.trans h; rfl)
    | (rcases event_eq_next.1 h with ⟨-, h⟩ | ⟨-, rfl⟩ <;> first | rfl | (cases h; rfl))
    | (cases h; rfl)
/-- With `utx` full the resolution of a held `U_WRITE` changes nothing, whatever `u_held` and `gie` are (R175, R369). -/
theorem resolveUWrite_full {b : Byte} {s : State} (h : s.fullAt .utx = true) : resolveUWrite b s = .next s := if_pos h

end Sys2Proof.Machine
end

