-- ==== Sys2Proof/Tests/Slice0.lean ====
section
/-! SUPPORT. Tests: ill-formed terms refused, every row decoded from a word written out from R103 to R113, the ring examples,
one step of each instruction with the values of spec/95_test_vectors.md, and, for each statement with hypotheses, states
and operands that meet them, clause by clause. -/

open Sys2Proof Sys2Proof.Machine

namespace Sys2Proof.Tests

/-! ### Decoding: `unit` 31:28, `op` 27:24, the operand as R103 lays it out -/

theorem test_decode_sysGetstat : decode 8 0x00000000#32 = .ok .sysGetstat := by decide
theorem test_decode_sysEint : decode 8 0x01000000#32 = .ok .sysEint := by decide
theorem test_decode_sysDint : decode 8 0x02000000#32 = .ok .sysDint := by decide
theorem test_decode_sysXie : decode 8 0x03000107#32 = .ok (.sysXie 7#8 true) := by decide
theorem test_decode_sysGetxie : decode 8 0x04000000#32 = .ok .sysGetxie := by decide
theorem test_decode_sysIret : decode 8 0x05000000#32 = .ok .sysIret := by decide
theorem test_decode_uBegin : decode 8 0x10FEDCBA#32 = .ok (.uBegin 0xFEDCBA#24) := by decide
theorem test_decode_uEnd : decode 8 0x11000000#32 = .ok .uEnd := by decide
theorem test_decode_uWrite : decode 8 0x120000EE#32 = .ok (.uWrite 0xEE#8) := by decide
theorem test_decode_uRead : decode 8 0x13000000#32 = .ok .uRead := by decide
theorem test_decode_uPeek : decode 8 0x14000000#32 = .ok .uPeek := by decide
theorem test_decode_uAvail : decode 8 0x15000000#32 = .ok .uAvail := by decide
theorem test_decode_uFlush : decode 8 0x16000000#32 = .ok .uFlush := by decide
theorem test_decode_uSet7bit : decode 8 0x17000001#32 = .ok (.uSet7bit true) := by decide
theorem test_decode_uSetstop : decode 8 0x18000001#32 = .ok (.uSetstop true) := by decide
theorem test_decode_uSetparity : decode 8 0x19000002#32 = .ok (.uSetparity .even) := by decide
theorem test_decode_uSendbreak : decode 8 0x1A000000#32 = .ok .uSendbreak := by decide
theorem test_decode_uAttachbrk : decode 8 0x1B000000#32 = .ok .uAttachbrk := by decide
theorem test_decode_uDetachbrk : decode 8 0x1C000000#32 = .ok .uDetachbrk := by decide
theorem test_decode_uCaps : decode 8 0x1D000000#32 = .ok .uCaps := by decide
theorem test_decode_uGetstat : decode 8 0x1E000000#32 = .ok .uGetstat := by decide
theorem test_decode_iBegin : decode 8 0x20000E01#32 = .ok (.iBegin true true 0x201#10) := by decide
theorem test_decode_iEnd : decode 8 0x21000000#32 = .ok .iEnd := by decide
theorem test_decode_iBegintx : decode 8 0x2200063F#32 = .ok (.iBegintx true 0x23F#10) := by decide
theorem test_decode_iWrite : decode 8 0x2300007E#32 = .ok (.iWrite 0x7E#8) := by decide
theorem test_decode_iEndtx : decode 8 0x24000000#32 = .ok .iEndtx := by decide
theorem test_decode_iReqfrom : decode 8 0x25FF0628#32 = .ok (.iReqfrom 0xFF#8 true 0x228#10) := by decide
theorem test_decode_iRead : decode 8 0x26000000#32 = .ok .iRead := by decide
theorem test_decode_iPeek : decode 8 0x27000000#32 = .ok .iPeek := by decide
theorem test_decode_iAvail : decode 8 0x28000000#32 = .ok .iAvail := by decide
theorem test_decode_iOnreceive : decode 8 0x29000001#32 = .ok (.iOnreceive true) := by decide
theorem test_decode_iOnrequest : decode 8 0x2A000001#32 = .ok (.iOnrequest true) := by decide
theorem test_decode_iGetstat : decode 8 0x2B000000#32 = .ok .iGetstat := by decide
theorem test_decode_sBegin : decode 8 0x30000000#32 = .ok .sBegin := by decide
theorem test_decode_sEnd : decode 8 0x31000000#32 = .ok .sEnd := by decide
theorem test_decode_sBegintrans : decode 8 0x32060010#32 = .ok (.sBegintrans ⟨0x0010#16, false, 3#2⟩) := by decide
theorem test_decode_sEndtrans : decode 8 0x33000000#32 = .ok .sEndtrans := by decide
theorem test_decode_sXfer : decode 8 0x340000A5#32 = .ok (.sXfer 0xA5#8) := by decide
theorem test_decode_sXfer16 : decode 8 0x35001234#32 = .ok (.sXfer16 0x1234#16) := by decide
theorem test_decode_sXfer9 : decode 8 0x360001A5#32 = .ok (.sXfer9 0x1A5#9) := by decide
theorem test_decode_sSetdiv : decode 8 0x37008001#32 = .ok (.sSetdiv 0x8001#16) := by decide
theorem test_decode_sSetorder : decode 8 0x38000001#32 = .ok (.sSetorder true) := by decide
theorem test_decode_sSetmode : decode 8 0x39000002#32 = .ok (.sSetmode 2#2) := by decide
theorem test_decode_sUsingint : decode 8 0x3A000107#32 = .ok (.sUsingint .one 7#8) := by decide
theorem test_decode_sGetcfg : decode 8 0x3B000000#32 = .ok .sGetcfg := by decide
theorem test_decode_evTick : decode 8 0x80000000#32 = .ok .evTick := by decide
theorem test_decode_evXint : decode 8 0x81000003#32 = .ok (.evXint 3#8) := by decide
theorem test_decode_evUTxrdy : decode 8 0x90000000#32 = .ok .evUTxrdy := by decide
theorem test_decode_evURxrdy : decode 8 0x91000059#32 = .ok (.evURxrdy 0x59#8) := by decide
theorem test_decode_evUBreak : decode 8 0x92000000#32 = .ok .evUBreak := by decide
theorem test_decode_evIData : decode 8 0xA00000A5#32 = .ok (.evIData 0xA5#8) := by decide
theorem test_decode_evICtrl : decode 8 0xA1000014#32 = .ok (.evICtrl .start true) := by decide
theorem test_decode_evIAddrack : decode 8 0xA2000000#32 = .ok .evIAddrack := by decide
theorem test_decode_evIStopdone : decode 8 0xA3000000#32 = .ok .evIStopdone := by decide
theorem test_decode_oCb : decode 8 0xC0000202#32 = .ok (.oCb .rcv 0x02#8) := by decide
theorem test_decode_oUTx : decode 8 0xD0000058#32 = .ok (.oUTx 0x58#8) := by decide
theorem test_decode_oIStart : decode 8 0xE0000828#32 = .ok (.oIStart true false 0x028#10) := by decide
theorem test_decode_oITx : decode 8 0xE1000026#32 = .ok (.oITx 0x26#8) := by decide
theorem test_decode_oIStop : decode 8 0xE2000000#32 = .ok .oIStop := by decide
theorem test_decode_oINack : decode 8 0xE3000000#32 = .ok .oINack := by decide
theorem test_decode_oSXfer : decode 8 0xF00F01A5#32 = .ok (.oSXfer .bits9 3#2 true 0x01A5#16) := by decide

/-! ### Ill-formed terms are refused, one for each check of R111, and so are their words -/

theorem test_illformed_source : wellFormed 8 (.sysXie 8#8 true) = false ∧ wellFormed 8 (.evXint 8#8) = false := by decide
theorem test_illformed_irq_source : wellFormed 8 (.sUsingint .one 8#8) = false := by decide
theorem test_illformed_irq_unused_source :
    wellFormed 8 (.sUsingint .none 3#8) = false ∧ wellFormed 8 (.sUsingint .all 3#8) = false := by decide
theorem test_illformed_seven_bit_address :
    wellFormed 8 (.iBegintx false 0x80#10) = false ∧ wellFormed 8 (.iReqfrom 1#8 false 0x200#10) = false
      ∧ wellFormed 8 (.iBegin true false 0x80#10) = false := by decide
theorem test_illformed_master_address :
    wellFormed 8 (.iBegin false false 0x42#10) = false ∧ wellFormed 8 (.iBegin false true 0#10) = false := by decide
theorem test_illformed_direction :
    wellFormed 8 (.evICtrl .stop true) = false ∧ wellFormed 8 (.evICtrl .nack true) = false
      ∧ wellFormed 8 (.evICtrl .al true) = false := by decide
/-- V-SPI-6: `irqmode = 3`, a source with `IRQ_NONE`, bit 19 of format S, bit 2 of format F2; R111: `sel = 3`, `cause` not one-hot. -/
theorem test_decode_refuses_operands :
    ([0x3A000300#32, 0x3A000108#32, 0x3A000003#32, 0x32080000#32, 0x39000004#32, 0x19000003#32, 0xA1000005#32, 0xA1000000#32].map
      (decode 8)) = List.replicate 8 (.error .operand) := by decide
/-- V-ILL-1 and V-ILL-3: port before opcode before operand. -/
theorem test_decodeCmd_order :
    [0x9FFFFFFF#32, 0xFFFFFFFF#32, 0x4A000001#32, 0x0F000000#32, 0x24000001#32, 0x16800000#32].map (decodeCmd 8)
      = [.error .port, .error .port, .error .opcode, .error .opcode, .error .operand, .error .operand] := by decide
/-- V-ILL-2. -/
theorem test_decodeEvt_drops :
    [0x12000058#32, 0xB0000000#32, 0xC0000000#32, 0x82000000#32, 0x90000001#32, 0xA1000020#32, 0x91000100#32].map (decodeEvt 8)
      = List.replicate 7 none := by decide

/-! ### Rings (V-RING-1 to V-RING-4, V-RING-9, V-RING-13) -/

theorem test_inc : (inc 16 0, inc 16 15, inc 5 4, inc 2 1, inc 256 255, inc 17 15, inc 17 16) = (1, 0, 0, 0, 0, 16, 0) := by
  decide
theorem test_count :
    (Ring.count 16 ⟨[], 2, 14⟩, Ring.count 16 ⟨[], 0, 1⟩, Ring.count 5 ⟨[], 1, 3⟩, Ring.count 256 ⟨[], 0, 1⟩,
      Ring.count 10 ⟨[], 2, 8⟩) = (4, 15, 3, 255, 4) := by decide
theorem test_full_empty :
    (Ring.full 16 ⟨[], 9, 10⟩, Ring.empty ⟨[], 9, 10⟩, Ring.full 16 ⟨[], 10, 9⟩, Ring.full 16 ⟨[], 15, 0⟩, Ring.empty ⟨[], 9, 9⟩)
      = (true, false, false, true, true) := by decide
theorem test_space : (Ring.space 16 ⟨[], 0, 0⟩, Ring.space 16 ⟨[], 5, 2⟩, Ring.space 16 ⟨[], 15, 0⟩) = (15, 12, 0) := by
  decide
/-- V-RING-9: the two pushes that wrap, modulus 5. -/
theorem test_push_wraps :
    Ring.pushAll 5 ⟨[(0, 1#8), (1, 2#8), (2, 3#8), (3, 4#8)], 4, 2⟩ [5#8, 6#8]
      = .ok ⟨[(0, 6#8), (1, 2#8), (2, 3#8), (3, 4#8), (4, 5#8)], 1, 2⟩ := by decide
theorem test_pop_order :
    (match Ring.popAll 5 ⟨[(0, 6#8), (1, 2#8), (2, 3#8), (3, 4#8), (4, 5#8)], 1, 2⟩ 4 with
      | .ok (bs, r) => some (bs, r.head, r.tail)
      | .error _ => none) = some ([3#8, 4#8, 5#8, 6#8], 1, 1) := by decide
theorem test_wire : (wire true 0xB1#8, wire false 0xB1#8)
    = ([true, false, true, true, false, false, false, true], [true, false, false, false, true, true, false, true]) := by decide
theorem test_unwire : unwire 9 false (wire false 0x1A5#9) = 0x1A5#9 ∧ unwire 9 true (wire true 0x1A5#9) = 0x1A5#9 := by decide

/-! ### States the tests start from -/

/-- The UART and I2C units running in foreground, the SPI unit on with the configuration of spec/95, source 3 enabled. -/
def live : State := { State.reset with
  sys.gie := true, sys.xie := 0x08#32, uart.held := false, uart.rxie := true, uart.txie := true, i2c.en := true,
  spi.en := true, spi.cfg := ⟨⟨2#16, true⟩, ⟨true, true⟩, ⟨3#2, true⟩⟩ }

/-- One byte, in the last slot of a ring of 16; the next goes to slot 0. -/
def oneByte : Ring := ⟨[(15, 0x59#8)], 0, 15⟩

/-- A full ring of 16: the bytes 00 to 0E in slots 0 to 14 (S2). -/
def fullRing : Ring := ⟨(List.range 15).map fun i => (i, BitVec.ofNat 8 i), 15, 0⟩

/-- Inside a window of kind `k`, the foreground below. -/
def inside (k : FrameKind) (s : State) : State := { s with sys.gie := false, sys.ctx := ⟨⟨k, .none⟩, [⟨.fg, .none⟩]⟩ }

/-- A reset state that will make these presentations. -/
def scripted (l : List Stimulus) : State := { State.reset with env.script := l }

/-- What `f` shows of the next state, if there is one. -/
def shows {α : Type} (f : State → α) (o : Host.Outcome State Fault Refusal) : Option α :=
  match o with
  | .next t => some (f t)
  | .fault _ => none
  | .refused _ => none

/-- The last answer. -/
def answer (s : State) : Option Answer := s.out.answers.getLast?

/-- The answer `v`. -/
def val (v : Word) : Option Answer := some ⟨false, v⟩

/-! ### One step of each instruction -/

/-- V-SYS-3. -/
theorem test_sysGetstat :
    shows (fun t => answer t) (exec .sysGetstat (inside (.xisr 0#8) live))
      = some (val 0x00010100#32) := by decide
/-- V-SYS-1. -/
theorem test_sysEint :
    shows (fun t => (t.sys.gie, answer t)) (exec .sysEint State.reset)
      = some (true, val 0#32) := by decide
/-- V-SYS-1. -/
theorem test_sysDint :
    shows (fun t => (t.sys.gie, t.sys.xie)) (exec .sysDint live)
      = some (false, 0x08#32) := by decide
/-- V-SYS-2. -/
theorem test_sysXie :
    shows (fun t => t.sys.xie) (exec (.sysXie 0#8 true) live)
      = some 0x09#32 := by decide
/-- V-SYS-2. -/
theorem test_sysXie_off :
    shows (fun t => t.sys.xie) (exec (.sysXie 3#8 false) { live with sys.xie := 0x09#32 })
      = some 0x01#32 := by decide
/-- V-SYS-2. -/
theorem test_sysGetxie :
    shows (fun t => answer t) (exec .sysGetxie { live with sys.xie := 0x09#32 })
      = some (val 0x09#32) := by decide
/-- P4 step 12. -/
theorem test_sysIret :
    shows (fun t => (t.sys.gie, t.sys.ctx.below, t.out.trace, answer t)) (exec .sysIret (inside (.xisr 3#8) live))
      = some (true, [], [], val 0#32) := by decide
/-- V-SYS-1. -/
theorem test_sysIret_foreground :
    shows (fun t => answer t) (exec .sysIret live)
      = some (some ⟨true, 3#32⟩) := by decide
/-- V-SYS-5. -/
theorem test_evTick :
    shows (fun t => t.sys.nowMs) (exec .evTick { State.reset with sys.nowMs := 0xFFFFFFFF#32 })
      = some 0#32 := by decide
/-- P4 step 9. -/
theorem test_evXint :
    shows (fun t => (t.out.trace, t.sys.gie, t.sys.ctx.top, t.sys.ctx.below)) (exec (.evXint 3#8) live)
      = some ([0xC0000300#32], false, ⟨.xisr 3#8, .none⟩, [⟨.fg, .none⟩]) := by decide
/-- P1 step 2, R161. -/
theorem test_uBegin :
    shows (fun t => (t.uart.held, t.uart.rxie, t.uart.txie, t.uart.utx.head, t.uart.div.known)) (exec (.uBegin 0x2580#24) { State.reset with uart.utx := fullRing, uart.txie := true })
      = some (false, true, false, 0, true) := by decide
/-- R162. -/
theorem test_uEnd :
    shows (fun t => (t.uart.held, t.uart.rxie, t.uart.txie, t.uart.cbBrk, t.uart.urx.head, t.sys.gie)) (exec .uEnd { live with uart.urx := fullRing, uart.cbBrk := true })
      = some (true, false, false, false, 0, true) := by decide
/-- R163. -/
theorem test_uWrite :
    shows (fun t => (t.uart.utx.buf, t.uart.utx.head, t.uart.txie, answer t)) (exec (.uWrite 0xEE#8) { live with uart.utx := ⟨[], 15, 3⟩, uart.txie := false })
      = some ([(15, 0xEE#8)], 0, true, val 1#32) := by decide
/-- S2. -/
theorem test_uWrite_full :
    shows (fun t => (t.uart.utx.head, answer t)) (exec (.uWrite 0xEE#8) { State.reset with uart.utx := fullRing })
      = some (15, val 0#32) := by decide
/-- P1 step 7, at the wrap. -/
theorem test_uRead :
    shows (fun t => (answer t, t.uart.urx.tail)) (exec .uRead { live with uart.urx := oneByte })
      = some (val 0x59#32, 0) := by decide
/-- S1. -/
theorem test_uRead_empty :
    shows (fun t => answer t) (exec .uRead live)
      = some (val 0xFFFFFFFF#32) := by decide
/-- R165. -/
theorem test_uPeek :
    shows (fun t => (answer t, t.uart.urx.tail)) (exec .uPeek { live with uart.urx := oneByte })
      = some (val 0x59#32, 15) := by decide
/-- S1. -/
theorem test_uAvail :
    shows (fun t => answer t) (exec .uAvail { live with uart.urx := ⟨[], 3, 0⟩ })
      = some (val 3#32) := by decide
/-- R167. -/
theorem test_uFlush :
    shows (fun t => (t.sys.ctx.top.wait, answer t)) (exec .uFlush { live with uart.utx := oneByte })
      = some (.uFlush, none) := by decide
/-- R168. -/
theorem test_uSet7bit :
    shows (fun t => (t.uart.bits7, t.uart.stop2)) (exec (.uSet7bit true) live)
      = some (true, false) := by decide
/-- R169. -/
theorem test_uSetstop :
    shows (fun t => (t.uart.bits7, t.uart.stop2)) (exec (.uSetstop true) live)
      = some (false, true) := by decide
/-- R170. -/
theorem test_uSetparity :
    shows (fun t => t.uart.parity) (exec (.uSetparity .odd) live)
      = some .odd := by decide
/-- R171. -/
theorem test_uSendbreak :
    shows (fun t => (answer t, t.out.trace)) (exec .uSendbreak live)
      = some (val 0#32, []) := by decide
/-- R172. -/
theorem test_uAttachbrk :
    shows (fun t => t.uart.cbBrk) (exec .uAttachbrk live)
      = some true := by decide
/-- R173. -/
theorem test_uDetachbrk :
    shows (fun t => t.uart.cbBrk) (exec .uDetachbrk { live with uart.cbBrk := true })
      = some false := by decide
/-- R45. -/
theorem test_uCaps :
    shows (fun t => answer t) (exec .uCaps live)
      = some (val 0x17#32) := by decide
/-- S2. -/
theorem test_uGetstat :
    shows (fun t => answer t) (exec .uGetstat { State.reset with uart.utx := fullRing, uart.txie := true })
      = some (val 0x00000F05#32) := by decide
/-- P1 step 4. -/
theorem test_evUTxrdy :
    shows (fun t => (t.uart.txreg, t.uart.utx.tail, t.out.trace)) (exec .evUTxrdy { live with uart.utx := ⟨[(0, 0x58#8)], 1, 0⟩ })
      = some (⟨0x58#8, true⟩, 1, [0xD0000058#32]) := by decide
/-- V-UART-4. -/
theorem test_evUTxrdy_empty :
    shows (fun t => (t.uart.txie, t.out.trace)) (exec .evUTxrdy live)
      = some (false, []) := by decide
/-- P1 step 5. -/
theorem test_evURxrdy :
    shows (fun t => (t.uart.urx.buf, t.uart.urx.head)) (exec (.evURxrdy 0x59#8) live)
      = some ([(0, 0x59#8)], 1) := by decide
/-- V-UART-5. -/
theorem test_evURxrdy_full :
    shows (fun t => (decide (t.uart.urx = fullRing), t.out.trace)) (exec (.evURxrdy 0x04#8) { live with uart.urx := fullRing })
      = some (true, []) := by decide
/-- R180. -/
theorem test_evUBreak :
    shows (fun t => (t.out.trace, t.sys.ctx.top.kind)) (exec .evUBreak { live with uart.cbBrk := true })
      = some ([0xC0000003#32], .cbBrk) := by decide
/-- P6 step 2. -/
theorem test_iBegin :
    shows (fun t => (t.i2c.mode, t.i2c.own, t.i2c.en)) (exec (.iBegin true false 0x42#10) State.reset)
      = some (.slave, 0x42#10, true) := by decide
/-- R202. -/
theorem test_iEnd :
    shows (fun t => (t.i2c.en, t.i2c.err, t.i2c.irx.head)) (exec .iEnd { live with i2c.err := .addrNack, i2c.irx := fullRing })
      = some (false, .none, 0) := by decide
/-- S5. -/
theorem test_iBegintx :
    shows (fun t => (t.i2c.err, t.i2c.target, t.i2c.itx.head)) (exec (.iBegintx false 0x29#10) { live with i2c.err := .addrNack, i2c.itx := fullRing })
      = some (.none, 0x29#10, 0) := by decide
/-- P2 step 5. -/
theorem test_iWrite :
    shows (fun t => (t.i2c.itx.buf, t.i2c.itx.head, answer t)) (exec (.iWrite 0x26#8) { live with i2c.itx := ⟨[(0, 0x00#8)], 1, 0⟩ })
      = some ([(0, 0x00#8), (1, 0x26#8)], 2, val 1#32) := by decide
/-- R204. -/
theorem test_iWrite_full :
    shows (fun t => answer t) (exec (.iWrite 0x26#8) { live with i2c.itx := fullRing })
      = some (val 0#32) := by decide
/-- P3 step 6. -/
theorem test_iEndtx :
    shows (fun t => (t.i2c.savedMode, t.i2c.mode, t.i2c.phase, t.sys.ctx.top.wait, t.out.trace)) (exec .iEndtx { live with i2c.mode := .slave, i2c.target := 0x28#10 })
      = some (⟨.slave, true⟩, .master, .addr, .iAddr .tx, [0xE0000028#32]) := by decide
/-- R321. -/
theorem test_iEndtx_off :
    shows (fun t => answer t) (exec .iEndtx State.reset)
      = some (some ⟨true, 3#32⟩) := by decide
/-- P5 step 3. -/
theorem test_iReqfrom :
    shows (fun t => (t.i2c.expect, t.i2c.role, t.sys.ctx.top.wait, t.out.trace)) (exec (.iReqfrom 1#8 false 0x28#10) live)
      = some (1#8, .masterRx, .iAddr .rx, [0xE0000828#32]) := by decide
/-- S5. -/
theorem test_iReqfrom_none :
    shows (fun t => (t.i2c.err, t.i2c.phase, answer t, t.out.trace)) (exec (.iReqfrom 0#8 false 0x29#10) { live with i2c.err := .busBusy })
      = some (.none, .none, val 0#32, []) := by decide
/-- P5 step 11. -/
theorem test_iRead :
    shows (fun t => (answer t, t.i2c.irx.tail)) (exec .iRead { live with i2c.irx := ⟨[(0, 0xA5#8)], 1, 0⟩ })
      = some (val 0xA5#32, 1) := by decide
/-- R208. -/
theorem test_iPeek :
    shows (fun t => answer t) (exec .iPeek live)
      = some (val 0xFFFFFFFF#32) := by decide
/-- P6 step 9. -/
theorem test_iAvail :
    shows (fun t => answer t) (exec .iAvail { live with i2c.irx := ⟨[], 2, 0⟩ })
      = some (val 2#32) := by decide
/-- P6 step 3. -/
theorem test_iOnreceive :
    shows (fun t => (t.i2c.cbRcv, t.i2c.cbReq)) (exec (.iOnreceive true) live)
      = some (true, false) := by decide
/-- P6 step 4. -/
theorem test_iOnrequest :
    shows (fun t => (t.i2c.cbRcv, t.i2c.cbReq)) (exec (.iOnrequest true) live)
      = some (false, true) := by decide
/-- P6 step 19. -/
theorem test_iGetstat :
    shows (fun t => answer t) (exec .iGetstat { live with i2c.mode := .slave, i2c.err := .dataNack, i2c.cbReq := true, i2c.cbRcv := true })
      = some (val 0x00000F10#32) := by decide
/-- P5. -/
theorem test_iGetstat_counts :
    shows (fun t => answer t) (exec .iGetstat { live with i2c.expect := 1#8, i2c.got := 1#8 })
      = some (val 0x01010200#32) := by decide
/-- P2 step 11. -/
theorem test_evIData_stop :
    shows (fun t => (t.i2c.stp, t.i2c.role, t.out.trace)) (exec (.evIData 0#8) { live with i2c.role := .masterTx, i2c.phase := .data })
      = some (true, .idle, [0xE2000000#32]) := by decide
/-- P5 step 6. -/
theorem test_evIData_receive :
    shows (fun t => (t.i2c.irx.buf, t.i2c.got, t.i2c.role, t.out.trace)) (exec (.evIData 0xA5#8) { live with i2c.role := .masterRx, i2c.phase := .data, i2c.expect := 1#8 })
      = some ([(0, 0xA5#8)], 1#8, .idle, []) := by decide
/-- P6 step 8. -/
theorem test_evICtrl_stop :
    shows (fun t => (t.i2c.irx.buf, t.i2c.irx.head, t.i2c.role, t.out.trace, t.sys.ctx.top.kind)) (exec (.evICtrl .stop false) { live with i2c.role := .slaveRx, i2c.mode := .slave, i2c.cbRcv := true, i2c.irx := ⟨[(0, 0x10#8), (1, 0x20#8)], 2, 0⟩ })
      = some ([(0, 0x10#8), (1, 0x20#8), (2, 0x00#8)], 2, .idle, [0xC0000202#32], .cbRcv) := by decide
/-- P6 step 13. -/
theorem test_evICtrl_start :
    shows (fun t => (t.i2c.role, t.i2c.itx.head, t.out.trace, t.sys.gie)) (exec (.evICtrl .start true) { live with i2c.mode := .slave, i2c.cbReq := true, i2c.itx := fullRing })
      = some (.slaveTx, 0, [0xC0000001#32], false) := by decide
/-- P5 step 4. -/
theorem test_evIAddrack :
    shows (fun t => (t.i2c.phase, t.i2c.stp, t.out.trace)) (exec .evIAddrack { live with i2c.role := .masterRx, i2c.phase := .addr, i2c.expect := 1#8 })
      = some (.data, true, [0xE2000000#32]) := by decide
/-- P2 step 13. -/
theorem test_evIStopdone :
    shows (fun t => t.i2c.stp) (exec .evIStopdone { live with i2c.stp := true })
      = some false := by decide
/-- R261. -/
theorem test_sBegin :
    shows (fun t => (t.spi.en, t.spi.cfg.div.known, t.spi.lock)) (exec .sBegin State.reset)
      = some (true, true, false) := by decide
/-- V-SPI-5. -/
theorem test_sEnd :
    shows (fun t => (t.spi.en, t.spi.cfg.mode)) (exec .sEnd live)
      = some (false, ⟨3#2, true⟩) := by decide
/-- R262. -/
theorem test_sBegintrans :
    shows (fun t => (t.spi.lock, t.sys.xie, t.spi.masked, t.spi.maskedSrc, t.sys.ctx.top.wait)) (exec (.sBegintrans ⟨4#16, true, 0#2⟩) { live with spi.irqMode := .one, spi.irqSrc := 3#8 })
      = some (true, 0#32, true, 3#8, .sBegin2 ⟨4#16, true, 0#2⟩) := by decide
/-- P4 step 10. -/
theorem test_sBegintrans_held :
    shows (fun t => (answer t, t.sys.gie, t.spi.cfg.div)) (exec (.sBegintrans ⟨0x10#16, false, 3#2⟩) { inside (.xisr 3#8) live with spi.lock := true })
      = some (val 0#32, true, ⟨2#16, true⟩) := by decide
/-- R264, V-SPI-3. -/
theorem test_sEndtrans :
    shows (fun t => (t.spi.lock, t.spi.masked, t.sys.xie, t.sys.gie, t.spi.cfg.div)) (exec .sEndtrans { live with sys.gie := false, sys.xie := 0#32, spi.lock := true, spi.masked := true, spi.maskedSrc := 3#8, spi.saved := ⟨⟨9#16, true⟩, ⟨true, true⟩, ⟨1#2, true⟩⟩ })
      = some (false, false, 0x08#32, true, ⟨9#16, true⟩) := by decide
/-- P4 step 15. -/
theorem test_sEndtrans_free :
    shows (fun t => answer t) (exec .sEndtrans live)
      = some (some ⟨true, 3#32⟩) := by decide
/-- P4 step 8. -/
theorem test_sXfer :
    shows (fun t => (answer t, t.out.trace)) (exec (.sXfer 0xA5#8) { live with spi.cfg.mode := ⟨0#2, true⟩, env.miso := 0x003C#16 })
      = some (val 0x3C#32, [0xF00100A5#32]) := by decide
/-- V-SPI-5. -/
theorem test_sXfer16 :
    shows (fun t => (answer t, t.out.trace)) (exec (.sXfer16 0x1234#16) { live with spi.cfg.mode := ⟨0#2, true⟩, spi.cfg.order := ⟨false, true⟩, env.miso := 0xBEEF#16 })
      = some (val 0xBEEF#32, [0xF0101234#32]) := by decide
/-- V-SPI-5. -/
theorem test_sXfer9 :
    shows (fun t => (answer t, t.out.trace)) (exec (.sXfer9 0x1A5#9) { live with env.miso := 0xFFFF#16 })
      = some (val 0x1FF#32, [0xF00F01A5#32]) := by decide
/-- R271. -/
theorem test_sSetdiv :
    shows (fun t => (t.spi.cfg.div, t.spi.cfg.mode)) (exec (.sSetdiv 9#16) live)
      = some (⟨9#16, true⟩, ⟨3#2, true⟩) := by decide
/-- R272. -/
theorem test_sSetorder :
    shows (fun t => (t.spi.cfg.order, t.spi.cfg.mode.known)) (exec (.sSetorder true) State.reset)
      = some (⟨true, true⟩, false) := by decide
/-- R273. -/
theorem test_sSetmode :
    shows (fun t => (t.spi.cfg.mode, t.spi.cfg.div)) (exec (.sSetmode 2#2) live)
      = some (⟨2#2, true⟩, ⟨2#16, true⟩) := by decide
/-- R274. -/
theorem test_sUsingint :
    shows (fun t => (t.spi.irqMode, t.spi.irqSrc, t.sys.xie)) (exec (.sUsingint .one 7#8) live)
      = some (.one, 7#8, 0x08#32) := by decide
/-- P4 step 4. -/
theorem test_sGetcfg :
    shows (fun t => answer t) (exec .sGetcfg live)
      = some (val 0x00170002#32) := by decide
/-- V-SPI-4. -/
theorem test_sGetcfg_all :
    shows (fun t => answer t) (exec .sGetcfg { live with spi.irqMode := .all, spi.lock := true, spi.cfg := ⟨⟨4#16, true⟩, ⟨true, true⟩, ⟨0#2, true⟩⟩ })
      = some (val 0x00990004#32) := by decide
/-- R113. -/
theorem test_oCb :
    shows (fun t => t.out.trace) (exec (.oCb .xint 3#8) State.reset)
      = some [0xC0000300#32] := by decide
/-- R113. -/
theorem test_oUTx :
    shows (fun t => t.out.trace) (exec (.oUTx 0x58#8) State.reset)
      = some [0xD0000058#32] := by decide
/-- R113. -/
theorem test_oIStart :
    shows (fun t => t.out.trace) (exec (.oIStart true false 0x28#10) State.reset)
      = some [0xE0000828#32] := by decide
/-- R113. -/
theorem test_oITx :
    shows (fun t => t.out.trace) (exec (.oITx 0x26#8) State.reset)
      = some [0xE1000026#32] := by decide
/-- R113. -/
theorem test_oIStop :
    shows (fun t => t.out.trace) (exec .oIStop State.reset)
      = some [0xE2000000#32] := by decide
/-- R113. -/
theorem test_oINack :
    shows (fun t => t.out.trace) (exec .oINack State.reset)
      = some [0xE3000000#32] := by decide
/-- R113. -/
theorem test_oSXfer :
    shows (fun t => t.out.trace) (exec (.oSXfer .bits16 0#2 false 0x1234#16) State.reset)
      = some [0xF0101234#32] := by decide
/-- V-UART-3. -/
theorem test_resolve_uWrite :
    shows (fun t => (t.uart.utx.buf, t.uart.utx.head, t.sys.ctx.top.wait, answer t)) (resolveTop { live with uart.utx := ⟨[], 15, 1⟩, sys.ctx.top.wait := .uWrite 0xEE#8 })
      = some ([(15, 0xEE#8)], 0, .none, val 1#32) := by decide
/-- R368, R369: `u_held` became 1 under the hold and `utx` is full (a `U_END` and 15 writes in the window): no answer, the
wait stays. -/
theorem test_resolve_uWrite_held_full :
    shows (fun t => (t.sys.ctx.top.wait, t.out.answers)) (resolveTop { live with uart.held := true, uart.utx := fullRing, sys.ctx.top.wait := .uWrite 0xEE#8 })
      = some (.uWrite 0xEE#8, []) := by decide
/-- R311, R368: no step but its resolution answers a held command, also where the ring has room. -/
theorem test_hold_stays_unresolved :
    shows (fun t => (t.sys.ctx.top.wait, t.out.answers)) (exec .evTick { live with uart.held := true, sys.ctx.top.wait := .uWrite 0xEE#8 })
      = some (.uWrite 0xEE#8, []) := by decide
/-- P3 step 9. -/
theorem test_resolve_timeout :
    shows (fun t => (t.i2c.err, t.i2c.role, t.sys.ctx.top.wait)) (resolveTop { live with sys.nowMs := 50#32, i2c.phase := .addr, i2c.role := .masterTx, sys.ctx.top.wait := .iAddr .tx })
      = some (.addrNack, .idle, .iStop .tx) := by decide
/-- P3 step 7. -/
theorem test_resolve_before_timeout :
    shows (fun t => (t.i2c.err, t.sys.ctx.top.wait)) (resolveTop { live with sys.nowMs := 49#32, i2c.phase := .addr, i2c.role := .masterTx, sys.ctx.top.wait := .iAddr .tx })
      = some (.none, .iAddr .tx) := by decide
/-- P3 step 10. -/
theorem test_resolve_iStop :
    shows (fun t => (t.i2c.mode, t.i2c.phase, answer t)) (resolveTop { live with i2c.savedMode := ⟨.slave, true⟩, i2c.phase := .addr, i2c.err := .addrNack, sys.ctx.top.wait := .iStop .tx })
      = some (.slave, .none, val 0#32) := by decide
/-- P4 step 6. -/
theorem test_resolve_sBegin2 :
    shows (fun t => (t.spi.saved.div, t.spi.cfg.mode, answer t)) (resolveTop { live with spi.lock := true, sys.ctx.top.wait := .sBegin2 ⟨4#16, true, 0#2⟩ })
      = some (⟨2#16, true⟩, ⟨0#2, true⟩, val 1#32) := by decide
/-- P1 step 3. -/
theorem test_step_cmd :
    shows (fun t => (t.uart.utx.buf, answer t)) (step (State.reset.withFetchWord 32 0x12000058))
      = some ([(0, 0x58#8)], val 1#32) := by decide
/-- V-ILL-1. -/
theorem test_step_port :
    shows (fun t => answer t) (step (scripted [.cmd 0xC0000000#32 0#16]))
      = some (some ⟨true, 4#32⟩) := by decide
/-- V-ILL-2. -/
theorem test_step_evt_dropped :
    shows (fun t => (t.out.evtIll, t.out.answers)) (step (scripted [.evt 0x91000100#32]))
      = some (true, []) := by decide
/-- R361. -/
theorem test_step_reset :
    shows (fun t => (t.uart.held, t.spi.cfg.div.known)) (step { live with env.script := [.rst] })
      = some (true, false) := by decide

/-! ### States and operands that meet the hypotheses of the statements, clause by clause -/

/-- A ring of modulus 2 at its capacity, and the ring of R150 just emptied. -/
def twoFull : Ring := ⟨[(0, 7#8)], 1, 0⟩

/-- A waiting frame on top. -/
def waits (w : Wait) (s : State) : State := { s with sys.ctx.top.wait := w }

theorem witness_DecodeInvertsEncode :
    wellFormed 8 (.evXint 7#8) = true ∧ wellFormed 1 (.evXint 0#8) = true ∧ wellFormed 8 (.iBegintx false 0x7F#10) = true
      ∧ wellFormed 8 (.iReqfrom 0xFF#8 true 0x3FF#10) = true ∧ wellFormed 32 (.sUsingint .one 31#8) = true := by decide

theorem witness_EncodeInvertsDecode : decode 8 0x25FF07FF#32 = .ok (.iReqfrom 0xFF#8 true 0x3FF#10) := by decide

theorem witness_WordChecks_port : 8 ≤ ((0x80000000#32).extractLsb' 28 4).toNat := by decide
theorem witness_WordChecks_opcode :
    (((0x7FFFFFFF#32).extractLsb' 28 4).toNat < 8 ∧ cmdRow 0x7FFFFFFF#32 = false)
      ∧ ((0x1F000000#32).extractLsb' 28 4).toNat < 8 ∧ cmdRow 0x1F000000#32 = false := by decide
theorem witness_WordChecks_operand :
    cmdRow 0x13000001#32 = true ∧ ∀ i, wellFormed 8 i = true → encode i ≠ 0x13000001#32 := by
  refine ⟨by decide, fun i _ h => ?_⟩
  have hk := congrArg keyOf h
  cases i <;> first | (simp only [encode, keyOf_word] at hk; exact absurd hk (by decide)) | exact absurd h (by decide)
theorem witness_WordChecks_legal :
    cmdRow 0x3B000000#32 = true ∧ wellFormed 8 .sGetcfg = true ∧ encode .sGetcfg = 0x3B000000#32 := by decide

theorem witness_StepRunsDecodedInstruction :
    ((scripted [.cmd 0x13000000#32 0xFFFF#16]).env.script = .cmd 0x13000000#32 0xFFFF#16 :: []
      ∧ decodeCmd (scripted []).params.nsrc 0x13000000#32 = .ok .uRead)
    ∧ ((scripted [.evt 0x80000000#32, .rst]).env.script = .evt 0x80000000#32 :: [.rst]
      ∧ decodeEvt (scripted []).params.nsrc 0x80000000#32 = some .evTick)
    ∧ (scripted [.resolve]).env.script = .resolve :: [] ∧ (scripted [.rst]).env.script = .rst :: []
    ∧ State.reset.env.script = [] := by decide

theorem witness_StepRejectsBadWords :
    ((scripted [.cmd 0x06000000#32 0#16]).env.script = .cmd 0x06000000#32 0#16 :: [] ∧ (scripted []).cmdReady = true
      ∧ decodeCmd (scripted []).params.nsrc 0x06000000#32 = .error .opcode
      ∧ decodeCmd (scripted []).params.nsrc 0x03000108#32 = .error .operand
      ∧ decodeCmd (scripted []).params.nsrc 0x80000000#32 = .error .port)
    ∧ (scripted [.evt 0xB0000000#32]).env.script = .evt 0xB0000000#32 :: []
      ∧ decodeEvt (scripted []).params.nsrc 0xB0000000#32 = none := by decide

theorem witness_WaitingFrameAcceptsNoCommand :
    (waits .uFlush (scripted [.cmd 0x13000000#32 0#16])).env.script = .cmd 0x13000000#32 0#16 :: []
      ∧ (waits .uFlush (scripted [])).sys.ctx.top.wait ≠ .none := by decide

/-- Each condition of R325 fails on its own: interrupts off, the unit's own enable off, the unit held. -/
theorem witness_UndeliverableEventChangesNothing :
    (¬ (State.reset.sys.gie = true ∧ State.reset.uart.txie = true ∧ State.reset.uart.held = false))
    ∧ (¬ (live.sys.gie = true ∧ false = true ∧ live.uart.held = false))
    ∧ (let s : State := { live with uart.held := true }
       ¬ (s.sys.gie = true ∧ s.uart.rxie = true ∧ s.uart.held = false))
    ∧ (let s : State := { live with i2c.en := false }; ¬ (s.sys.gie = true ∧ s.i2c.en = true))
    ∧ ¬ (live.sys.gie = true ∧ live.sys.xie.getLsbD (4#8 : Source).toNat = true)
    ∧ live.i2c.phase ≠ .addr ∧ live.i2c.stp = false := by decide

theorem witness_ResetValues : (scripted [.rst]).env.script = .rst :: [] := by decide

theorem witness_RingCountLaws :
    (2 ≤ 2 ∧ (⟨[], 1, 0⟩ : Ring).head < 2 ∧ (⟨[], 1, 0⟩ : Ring).tail < 2)
    ∧ (2 ≤ 256 ∧ (⟨[], 255, 0⟩ : Ring).head < 256 ∧ (⟨[], 0, 255⟩ : Ring).tail < 256)
    ∧ (∃ r', Ring.push 5 ⟨[], 4, 1⟩ 6#8 = .ok r') ∧ (∃ v r', Ring.pop 16 oneByte = .ok (v, r'))
    ∧ (⟨[], 4, 4⟩ : Ring).empty = true ∧ (List.replicate 5 (0#8 : Byte)).length = 5 :=
  ⟨by decide, by decide, ⟨_, rfl⟩, ⟨_, _, rfl⟩, by decide, by decide⟩

theorem witness_RingPrimitivesOnContents :
    (oneByte.Ok 16 ∧ oneByte.full 16 = false ∧ oneByte.empty = false)
    ∧ (twoFull.Ok 2 ∧ twoFull.empty = false) ∧ Ring.reset.Ok 256 ∧ Ring.reset.full 256 = false := by decide

theorem witness_RingFifo :
    oneByte.Ok 16 ∧ oneByte.contents 16 = [0x59#8].map some
      ∧ [0x59#8].length + (List.replicate 14 (0xA5#8 : Byte)).length ≤ 16 - 1 := by decide

theorem witness_RingPowerOfTwoForm :
    (1 ≤ 8 ∧ 8 ≤ 8 ∧ 255 < 2 ^ 8 ∧ 0 < 2 ^ 8) ∧ (1 ≤ 1 ∧ 1 ≤ 8 ∧ 1 < 2 ^ 1) ∧ 2 ≤ 17 ∧ 17 ≤ 256
      ∧ 17 ≤ 2 ^ 5 ∧ ∀ k, 17 ≠ 2 ^ k := by
  refine ⟨by decide, by decide, by decide, by decide, by decide, fun k => ?_⟩
  rcases k with _ | _ | _ | _ | _ | k
  all_goals first | decide | (rw [Nat.pow_add]; omega)

/-- Modulus 5, rotated by 3: the bytes of slots 3, 4 and 0 move to slots 1, 2 and 3. -/
theorem witness_RingRotationInvariance :
    let r : Ring := ⟨[(0, 3#8), (3, 1#8), (4, 2#8)], 1, 3⟩
    let r' : Ring := ⟨[(1, 1#8), (2, 2#8), (3, 3#8)], 4, 1⟩
    (r.head < 5 ∧ r.tail < 5 ∧ Ring.Rotated 5 3 r r')
      ∧ (∃ t, r.push 5 9#8 = .ok t) ∧ (∃ v t, r.pop 5 = .ok (v, t)) ∧ ∃ t, r.mark 5 0#8 = .ok t := by
  refine ⟨⟨by decide, by decide, ?_⟩, ⟨_, rfl⟩, ⟨_, _, rfl⟩, ⟨_, rfl⟩⟩
  unfold Ring.Rotated
  decide

/-- An accepted command: what `SysStatusWord`, `SysXieWord`, `SysGieCommands`, `UBeginAndEnd`, `UartSettingsAreRecorded`,
`I2cStatusWord` and `SpiConfigurationCommands` ask for. -/
theorem witness_accepted_command : State.reset.cmdReady = true ∧ live.cmdReady = true ∧ (inside .cbRcv live).cmdReady = true := by
  decide

theorem witness_SysXieCommand :
    live.cmdReady = true ∧ (0#8 : Source).toNat < 32 ∧ (31#8 : Source).toNat < 32 := by decide

theorem witness_SysIretReturns :
    (let s := inside .cbReq live
     s.cmdReady = true ∧ s.sys.ctx.below = ⟨.fg, .none⟩ :: [] ∧ s.sys.ctx.top.kind = .cbReq ∧ s.i2c.itx.head = s.i2c.itx.tail)
    ∧ (let s : State := { inside .cbReq live with i2c.itx := oneByte }
       s.cmdReady = true ∧ s.sys.ctx.below = ⟨.fg, .none⟩ :: []
        ∧ ¬ (s.sys.ctx.top.kind = .cbReq ∧ s.i2c.itx.head = s.i2c.itx.tail))
    ∧ live.cmdReady = true ∧ live.sys.ctx.below = [] := by decide

theorem witness_TickAndExternalInterrupt :
    (live.sys.gie = true ∧ live.sys.xie.getLsbD (3#8 : Source).toNat = true)
    ∧ (let s : State := { live with sys.xie := 0x80000001#32 }
       s.sys.gie = true ∧ s.sys.xie.getLsbD (0#8 : Source).toNat = true
        ∧ s.sys.xie.getLsbD (31#8 : Source).toNat = true) := by decide

theorem witness_UWriteQueuesAnswersOrWaits :
    (let s : State := { live with uart.utx := oneByte }
     s.cmdReady = true ∧ s.uart.utx.Ok s.params.nUtx ∧ s.fullAt .utx = false)
    ∧ (let s : State := { State.reset with uart.utx := fullRing }
       s.cmdReady = true ∧ s.fullAt .utx = true ∧ s.uart.held = true ∧ s.sys.gie = false)
    ∧ (let s : State := { live with uart.utx := fullRing, sys.gie := false }
       s.cmdReady = true ∧ s.fullAt .utx = true ∧ s.uart.held = false ∧ s.sys.gie = false)
    ∧ (let s : State := { live with uart.utx := fullRing }
       s.cmdReady = true ∧ s.fullAt .utx = true ∧ s.uart.held = false ∧ s.sys.gie = true) := by decide

theorem witness_UFlushAndUartWaits :
    (live.cmdReady = true ∧ live.emptyAt .utx = true)
    ∧ (let s : State := { live with uart.utx := oneByte }; s.cmdReady = true ∧ s.emptyAt .utx = false)
    ∧ (let s : State := waits (.uWrite 0xEE#8) { live with uart.utx := fullRing }
       s.sys.ctx.top.wait = .uWrite 0xEE#8 ∧ s.uart.utx.Ok s.params.nUtx ∧ s.fullAt .utx = true)
    ∧ (let s : State := waits (.uWrite 0xEE#8) { live with uart.utx := { fullRing with tail := 1 } }
       s.sys.ctx.top.wait = .uWrite 0xEE#8 ∧ s.uart.utx.Ok s.params.nUtx ∧ s.fullAt .utx = false)
    ∧ (let s : State := waits .uFlush { live with uart.utx := oneByte }
       s.sys.ctx.top.wait = .uFlush ∧ s.emptyAt .utx = false)
    ∧ (waits .uFlush live).sys.ctx.top.wait = .uFlush ∧ (waits .uFlush live).emptyAt .utx = true := by decide

/-- For `ReadsTakeTheOldestByte` and `PeeksAndCountsChangeNothing`: both rings empty, both with a byte at the wrap. -/
theorem witness_ReadsAndPeeks :
    (live.cmdReady = true ∧ live.emptyAt .urx = true ∧ live.emptyAt .irx = true)
    ∧ (let s : State := { live with uart.urx := oneByte, i2c.irx := oneByte }
       s.cmdReady = true ∧ s.emptyAt .urx = false ∧ s.uart.urx.Ok s.params.nUrx ∧ s.emptyAt .irx = false
        ∧ s.i2c.irx.Ok s.params.nIrx)
    ∧ live.params.nUrx ≤ 256 ∧ 0 < live.params.nUrx ∧ live.params.nIrx ≤ 256 ∧ 0 < live.params.nIrx := by decide

theorem witness_UartStatusWords :
    let s : State := { live with params.nUtx := 256, params.nUrx := 2, uart.utx := ⟨[], 0, 1⟩, uart.urx := twoFull }
    s.cmdReady = true ∧ 0 < s.params.nUtx ∧ s.params.nUtx ≤ 256 ∧ 0 < s.params.nUrx ∧ s.params.nUrx ≤ 256
      ∧ s.countAt .utx = 255 := by decide

theorem witness_TransmitReadyEvent :
    (live.sys.gie = true ∧ live.uart.txie = true ∧ live.uart.held = false ∧ live.emptyAt .utx = true)
    ∧ (let s : State := { live with uart.utx := oneByte }
       s.sys.gie = true ∧ s.uart.txie = true ∧ s.uart.held = false ∧ s.emptyAt .utx = false
        ∧ s.uart.utx.Ok s.params.nUtx) := by decide

theorem witness_ReceiveAndBreakEvents :
    (live.sys.gie = true ∧ live.uart.rxie = true ∧ live.uart.held = false ∧ live.fullAt .urx = false
      ∧ live.uart.urx.Ok live.params.nUrx ∧ live.uart.cbBrk = false)
    ∧ (let s : State := { live with uart.urx := fullRing, uart.cbBrk := true }
       s.sys.gie = true ∧ s.uart.rxie = true ∧ s.uart.held = false ∧ s.fullAt .urx = true ∧ s.uart.cbBrk = true) := by
  decide

/-- For `IBeginAndEnd` and `IBegintxAndCallbacks`: no master operation, and one in progress below a window. -/
theorem witness_IBeginAndEnd :
    (live.cmdReady = true ∧ live.i2c.phase = .none)
    ∧ (let s : State := { inside (.xisr 3#8) live with
          i2c.phase := .data, sys.ctx.below := [⟨.fg, .iDone .tx⟩] }
       s.cmdReady = true ∧ s.i2c.phase ≠ .none) := by decide

theorem witness_IWriteQueuesOrAnswersZero :
    (let s : State := { live with i2c.itx := fullRing }; s.cmdReady = true ∧ s.fullAt .itx = true)
    ∧ (let s : State := { live with i2c.itx := oneByte }
       s.cmdReady = true ∧ s.fullAt .itx = false ∧ s.i2c.itx.Ok s.params.nItx) := by decide

theorem witness_MasterOperationStarts :
    (live.cmdReady = true ∧ live.i2c.en = true ∧ live.i2c.phase = .none ∧ 2 ≤ live.params.nIrx
      ∧ (0#8 : Byte).toNat = 0 ∧ (255#8 : Byte).toNat ≠ 0 ∧ (1#8 : Byte).toNat ≠ 0)
    ∧ (State.reset.cmdReady = true ∧ State.reset.i2c.en = false)
    ∧ (let s : State := { inside .cbBrk live with i2c.phase := .addr, sys.ctx.below := [⟨.fg, .iAddr .rx⟩] }
       s.cmdReady = true ∧ s.i2c.phase ≠ .none) := by decide

/-- The deadline at its two sides, 50 and 49 ticks, the first across the counter's wrap. -/
theorem witness_AddressWaitResolves :
    (let s : State := waits (.iAddr .tx) { live with i2c.phase := .addr, i2c.err := .busBusy }
     s.sys.ctx.top.wait = .iAddr .tx ∧ s.i2c.err ≠ .none)
    ∧ (let s : State := waits (.iAddr .rx) { live with i2c.phase := .data }
       s.sys.ctx.top.wait = .iAddr .rx ∧ s.i2c.err = .none ∧ s.i2c.phase = .data)
    ∧ (let s : State := waits (.iAddr .tx) { live with i2c.phase := .addr, i2c.t0 := 0xFFFFFFFF#32, sys.nowMs := 49#32 }
       s.sys.ctx.top.wait = .iAddr .tx ∧ s.i2c.err = .none ∧ s.i2c.phase ≠ .data
        ∧ s.params.addrTimeout.toNat ≤ (s.sys.nowMs.toNat + 2 ^ 32 - s.i2c.t0.toNat) % 2 ^ 32)
    ∧ (let s : State := waits (.iAddr .tx) { live with i2c.phase := .addr, sys.nowMs := 49#32 }
       s.sys.ctx.top.wait = .iAddr .tx ∧ s.i2c.err = .none ∧ s.i2c.phase ≠ .data
        ∧ (s.sys.nowMs.toNat + 2 ^ 32 - s.i2c.t0.toNat) % 2 ^ 32 < s.params.addrTimeout.toNat) := by decide

theorem witness_MasterOperationCompletes :
    ((waits (.iDone .rx) live).sys.ctx.top.wait = .iDone .rx ∧ live.i2c.role = .idle)
    ∧ (let s : State := waits (.iDone .tx) { live with i2c.role := .masterTx, i2c.phase := .data }
       s.sys.ctx.top.wait = .iDone .tx ∧ s.i2c.role ≠ .idle ∧ s.i2c.err = .none)
    ∧ (let s : State := waits (.iStop .tx) { live with i2c.stp := true, i2c.phase := .data }
       s.sys.ctx.top.wait = .iStop .tx ∧ s.i2c.stp = true)
    ∧ (let s : State := waits (.iStop .rx) { live with i2c.phase := .data, i2c.savedMode := ⟨.slave, true⟩ }
       s.sys.ctx.top.wait = .iStop .rx ∧ s.i2c.stp = false ∧ s.i2c.savedMode.val = .slave)
    ∧ (let s : State := waits (.iStop .tx) live
       s.sys.ctx.top.wait = .iStop .tx ∧ s.i2c.stp = false ∧ s.i2c.savedMode.known = false) := by decide

theorem witness_DataEventMasterTransmit :
    (live.sys.gie = true ∧ live.i2c.en = true ∧ live.i2c.role = .idle)
    ∧ (let s : State := { live with i2c.role := .masterTx, i2c.phase := .data }
       s.sys.gie = true ∧ s.i2c.en = true ∧ s.i2c.role = .masterTx ∧ s.emptyAt .itx = true)
    ∧ (let s : State := { live with i2c.role := .masterTx, i2c.phase := .data, i2c.itx := oneByte }
       s.sys.gie = true ∧ s.i2c.en = true ∧ s.i2c.role = .masterTx ∧ s.emptyAt .itx = false
        ∧ s.i2c.itx.Ok s.params.nItx) := by decide

/-- The last byte, the one before it and an earlier one; a ring with room and a full one. -/
theorem witness_DataEventMasterReceive :
    (let s : State := { live with i2c.role := .masterRx, i2c.expect := 255#8, i2c.got := 254#8 }
     s.sys.gie = true ∧ s.i2c.en = true ∧ s.i2c.role = .masterRx ∧ s.i2c.irx.Ok s.params.nIrx ∧ s.fullAt .irx = false
      ∧ s.i2c.got + 1#8 = s.i2c.expect)
    ∧ (let s : State := { live with i2c.role := .masterRx, i2c.expect := 2#8 }
       s.i2c.irx.Ok s.params.nIrx ∧ s.i2c.got + 1#8 ≠ s.i2c.expect
        ∧ (s.i2c.got + 1#8).toNat + 1 = s.i2c.expect.toNat)
    ∧ (let s : State := { live with i2c.role := .masterRx, i2c.expect := 3#8, i2c.irx := fullRing }
       s.i2c.irx.Ok s.params.nIrx ∧ s.fullAt .irx = true ∧ s.i2c.got + 1#8 ≠ s.i2c.expect
        ∧ (s.i2c.got + 1#8).toNat + 1 ≠ s.i2c.expect.toNat) := by decide

theorem witness_DataEventSlave :
    (let s : State := { live with i2c.mode := .slave, i2c.role := .slaveTx }
     s.sys.gie = true ∧ s.i2c.en = true ∧ s.i2c.role = .slaveTx ∧ s.emptyAt .itx = true)
    ∧ (let s : State := { live with i2c.mode := .slave, i2c.role := .slaveTx, i2c.itx := oneByte }
       s.sys.gie = true ∧ s.i2c.role = .slaveTx ∧ s.emptyAt .itx = false ∧ s.i2c.itx.Ok s.params.nItx)
    ∧ (let s : State := { live with i2c.mode := .slave, i2c.role := .slaveRx, i2c.irx := fullRing }
       s.sys.gie = true ∧ s.i2c.role = .slaveRx ∧ s.fullAt .irx = true)
    ∧ (let s : State := { live with i2c.mode := .slave, i2c.role := .slaveRx, i2c.irx := oneByte }
       s.sys.gie = true ∧ s.i2c.role = .slaveRx ∧ s.fullAt .irx = false ∧ s.i2c.irx.Ok s.params.nIrx) := by decide

theorem witness_ArbitrationLossAndNack :
    (live.sys.gie = true ∧ live.i2c.en = true ∧ live.i2c.role = .idle)
    ∧ (let s : State := { live with i2c.role := .masterTx, i2c.phase := .addr }
       s.sys.gie = true ∧ s.i2c.en = true ∧ s.i2c.role ≠ .idle ∧ s.i2c.phase = .addr)
    ∧ (let s : State := { live with i2c.mode := .slave, i2c.role := .slaveTx }
       s.sys.gie = true ∧ s.i2c.en = true ∧ s.i2c.role ≠ .idle ∧ s.i2c.phase ≠ .addr) := by decide

theorem witness_StartEvent :
    (live.sys.gie = true ∧ live.i2c.en = true ∧ live.i2c.mode = .master)
    ∧ (let s : State := { live with i2c.mode := .slave, i2c.cbReq := true }
       s.sys.gie = true ∧ s.i2c.en = true ∧ s.i2c.mode = .slave ∧ s.i2c.cbReq = true)
    ∧ (let s : State := { live with i2c.mode := .slave }
       s.sys.gie = true ∧ s.i2c.en = true ∧ s.i2c.mode = .slave ∧ s.i2c.cbReq = false) := by decide

theorem witness_StopEvent :
    (live.sys.gie = true ∧ live.i2c.en = true ∧ live.i2c.role = .idle)
    ∧ (let s : State := { live with i2c.mode := .slave, i2c.role := .slaveTx }
       s.sys.gie = true ∧ s.i2c.en = true ∧ s.i2c.role = .slaveTx)
    ∧ (let s : State := { live with i2c.mode := .slave, i2c.role := .slaveRx, i2c.irx := oneByte, i2c.cbRcv := true }
       s.sys.gie = true ∧ s.i2c.en = true ∧ s.i2c.role = .slaveRx ∧ s.i2c.irx.Ok s.params.nIrx ∧ s.params.nIrx ≤ 256
        ∧ s.fullAt .irx = false ∧ s.i2c.cbRcv = true)
    ∧ (let s : State := { live with i2c.mode := .slave, i2c.role := .slaveRx, i2c.irx := fullRing }
       s.sys.gie = true ∧ s.i2c.en = true ∧ s.i2c.role = .slaveRx ∧ s.i2c.irx.Ok s.params.nIrx
        ∧ s.fullAt .irx = true ∧ s.i2c.cbRcv = false) := by decide

theorem witness_PolledFlagEvents :
    (let s : State := { live with i2c.phase := .addr, i2c.role := .masterRx, i2c.expect := 1#8 }
     s.i2c.phase = .addr ∧ s.i2c.role = .masterRx ∧ s.i2c.expect = 1#8)
    ∧ (let s : State := { live with i2c.phase := .addr, i2c.role := .masterRx, i2c.expect := 2#8 }
       s.i2c.phase = .addr ∧ ¬ (s.i2c.role = .masterRx ∧ s.i2c.expect = 1#8))
    ∧ (let s : State := { live with i2c.stp := true }; s.i2c.stp = true) := by decide

theorem witness_SpiBeginTransaction :
    (let s : State := { live with spi.lock := true }; s.cmdReady = true ∧ s.spi.lock = true)
    ∧ (live.cmdReady = true ∧ live.spi.lock = false ∧ live.spi.irqMode = .none)
    ∧ (let s : State := { live with spi.irqMode := .all }; s.cmdReady = true ∧ s.spi.lock = false ∧ s.spi.irqMode = .all)
    ∧ (let s : State := { live with spi.irqMode := .one, spi.irqSrc := 3#8 }
       s.cmdReady = true ∧ s.spi.lock = false ∧ s.spi.irqMode = .one)
    ∧ (waits (.sBegin2 ⟨4#16, true, 0#2⟩) live).sys.ctx.top.wait = .sBegin2 ⟨4#16, true, 0#2⟩ := by decide

theorem witness_SpiEndTransaction :
    (live.cmdReady = true ∧ live.spi.lock = false)
    ∧ (let s : State := { live with spi.lock := true }; s.cmdReady = true ∧ s.spi.lock = true ∧ s.spi.masked = false)
    ∧ (let s : State := { live with spi.lock := true, spi.masked := true, spi.maskedSrc := 31#8 }
       s.cmdReady = true ∧ s.spi.lock = true ∧ s.spi.masked = true) := by decide

/-- For `SpiTransfers` and `SpiConfigurationWord`: off, on with a configuration, and the situation of R378. -/
theorem witness_SpiTransfers :
    (State.reset.cmdReady = true ∧ State.reset.spi.en = false)
    ∧ (live.cmdReady = true ∧ live.spi.en = true ∧ live.spi.cfg = ⟨⟨2#16, true⟩, ⟨true, true⟩, ⟨3#2, true⟩⟩)
    ∧ (let s : State := { live with spi.cfg := State.reset.spi.cfg }
       s.cmdReady = true ∧ s.spi.en = true ∧ s.spi.cfg.order.known = false ∧ s.spi.cfg.div.known = false) := by decide

/-- For `RefusalsAreTheListOfR321` and `OneAnswerPerCommand`: a refused command, a command that is answered, one that waits, a
wait that resolves, and a return into a frame that goes on waiting. -/
theorem witness_refused_and_answered :
    (State.reset.cmdReady = true ∧ refusedWhen .sEndtrans State.reset = true)
    ∧ (live.cmdReady = true ∧ refusedWhen .uRead live = false ∧ (∃ t, exec .uRead live = .next t)
      ∧ (unitOf (encode .uRead)).toNat < 8)
    ∧ (let s : State := { live with uart.utx := oneByte }; s.cmdReady = true ∧ ∃ t, exec .uFlush s = .next t)
    ∧ ((∃ t, exec .evTick live = .next t) ∧ 8 ≤ (unitOf (encode .evTick)).toNat)
    ∧ (∃ t, exec .sysIret { live with sys.ctx := ⟨⟨.cbRcv, .none⟩, [⟨.fg, .uFlush⟩]⟩ } = .next t ∧ t.sys.ctx.top.wait = .uFlush)
    ∧ (∃ t, resolveTop (waits .uFlush live) = .next t) ∧ (waits .uFlush live).sys.ctx.top.wait ≠ .none :=
  ⟨by decide, ⟨by decide, by decide, ⟨_, rfl⟩, by decide⟩, ⟨by decide, ⟨_, rfl⟩⟩, ⟨⟨_, rfl⟩, by decide⟩, ⟨_, rfl, rfl⟩,
    ⟨_, rfl⟩, by decide⟩

theorem witness_AtMostOneOutputPerStep :
    (∃ t, step { live with env.script := [.evt 0x81000003#32] } = .next t)
      ∧ ({ live with env.script := [.evt 0x81000003#32] } : State).nextIn ≠ .rst := ⟨⟨_, rfl⟩, by decide⟩

theorem witness_WritersOfGie :
    (∃ t, exec .sysDint live = .next t ∧ live.sys.gie = true ∧ t.sys.gie = false)
    ∧ ∃ t, exec .sysEint State.reset = .next t ∧ State.reset.sys.gie = false ∧ t.sys.gie = true :=
  ⟨⟨_, rfl, rfl, rfl⟩, ⟨_, rfl, rfl, rfl⟩⟩

/-- An index that moves, and an instruction that is none of the excepted ones. -/
theorem witness_SingleWriterPerIndex :
    (∃ t, exec (.uWrite 1#8) live = .next t ∧ t.uart.utx.head ≠ live.uart.utx.head)
    ∧ (let s : State := { live with i2c.role := .slaveTx, i2c.itx := oneByte }
       ∃ t, exec (.evIData 0#8) s = .next t ∧ t.i2c.itx.tail ≠ s.i2c.itx.tail)
    ∧ (∀ rate, Instr.uWrite 1#8 ≠ .uBegin rate) ∧ ∀ dir, Instr.evIData 0#8 ≠ .evICtrl .start dir :=
  ⟨⟨_, rfl, by decide⟩, ⟨_, rfl, by decide⟩, fun _ => by simp, fun _ => by simp⟩

/-- A state inside a window, with a master operation waiting below it, that meets the invariant and has a step. -/
def busy : State := { inside (.xisr 3#8) live with
  sys.ctx.below := [⟨.fg, .iDone .rx⟩], i2c.phase := .data, i2c.role := .masterRx, i2c.expect := 2#8, i2c.got := 1#8,
  i2c.savedMode := ⟨.slave, true⟩, i2c.irx := oneByte, uart.utx := fullRing, env.script := [.cmd 0x26000000#32 0#16] }

/-- For `StepKeepsInvariant` and `StepIsSafe`. -/
theorem witness_StepKeepsInvariant : busy.Inv ∧ ∃ t, step busy = .next t :=
  ⟨⟨by decide, by decide, by decide, by decide, by decide, by decide, by decide, by decide⟩, ⟨_, rfl⟩⟩

/-- The fault of `StepIsSafe`: a transfer with the unit on. -/
theorem witness_StepIsSafe_fault :
    let s : State := { State.reset with spi.en := true, env.script := [.cmd 0x34000000#32 0#16] }
    s.Inv ∧ step s = .fault (.noValue .spiCfg) ∧ s.accepts (.sXfer 0#8) ∧ s.spi.cfg.order.known = false :=
  ⟨⟨by decide, by decide, by decide, by decide, by decide, by decide, by decide, by decide⟩, rfl,
    show decodeCmd 8 0x34000000#32 = .ok (.sXfer 0#8) ∧ _ = true from ⟨by decide, rfl⟩, rfl⟩

/-- The fault of `StepIsSafe`: the configuration asked for at reset. -/
theorem witness_StepIsSafe_getcfg :
    let s : State := { State.reset with env.script := [.cmd 0x3B000000#32 0#16] }
    s.Inv ∧ step s = .fault (.noValue .spiCfg) ∧ s.accepts .sGetcfg ∧ s.spi.cfg.div.known = false :=
  ⟨⟨by decide, by decide, by decide, by decide, by decide, by decide, by decide, by decide⟩, rfl,
    show decodeCmd 8 0x3B000000#32 = .ok .sGetcfg ∧ _ = true from ⟨by decide, rfl⟩, rfl⟩

/-- The same unset configuration, and a step that goes on. -/
theorem witness_StepIsSafe_next :
    let s : State := { State.reset with env.script := [.cmd 0x34000000#32 0#16] }
    s.Inv ∧ (∃ t, step s = .next t) ∧ s.spi.cfg.order.known = false :=
  ⟨⟨by decide, by decide, by decide, by decide, by decide, by decide, by decide, by decide⟩, ⟨_, rfl⟩, rfl⟩

/-- What a state comes to. -/
def next (s : State) : State :=
  match step s with
  | .next t => t
  | .fault _ => s
  | .refused _ => s

/-- A transaction about to be applied, with a change of divider and its end to follow. -/
def opening : State := waits (.sBegin2 ⟨4#16, true, 0#2⟩) { live with
  spi.lock := true, env.script := [.resolve, .cmd 0x37000009#32 0#16, .cmd 0x33000000#32 0#16] }

theorem witness_SpiTransactionRestores :
    opening.atPhase2 ∧ step opening = .next (next opening)
      ∧ RunWhile State.keepsSaved (next opening) (next (next opening))
      ∧ (next (next opening)).accepts .sEndtrans ∧ (next (next opening)).spi.lock = true
      ∧ step (next (next opening)) = .next (next (next (next opening))) :=
  ⟨⟨rfl, _, rfl⟩, rfl, .more ⟨by decide, fun h => absurd h.1 (by decide)⟩ rfl (.done _), ⟨rfl, rfl⟩, rfl, rfl⟩

/-- A held lock, a step that keeps it, and a second `S_BEGINTRANS`. -/
def held : State := { live with
  spi.lock := true, env.script := [.cmd 0x37000009#32 0#16, .cmd 0x32010004#32 0#16] }

theorem witness_SpiLockExcludes :
    held.spi.lock = true ∧ RunWhile State.keepsLock held (next held)
      ∧ (next held).accepts (.sBegintrans ⟨4#16, true, 0#2⟩) :=
  ⟨rfl, .more ⟨by decide, fun h => by
      have h1 : decodeCmd held.params.nsrc 0x37000009#32 = .ok .sEndtrans := h.1
      exact absurd h1 (by decide)⟩ rfl (.done _), ⟨rfl, rfl⟩⟩

end Sys2Proof.Tests
end

section
/-! The decoder keeps a word's key, so an instruction of a port carries a unit of that port (R101, R102, R112). -/

namespace Sys2Proof

/-- Whatever `e` reads is an instruction of the row `key`. -/
def ReadsRow (key : BitVec 8) (e : Except IllCode Instr) : Prop := ∀ i, e = .ok i → keyOf (encode i) = key

theorem readsRow_ok {key : BitVec 8} {j : Instr} (h : keyOf (encode j) = key) : ReadsRow key (.ok j) := by
  rintro i ⟨⟩
  exact h

theorem readsRow_error (key : BitVec 8) (c : IllCode) : ReadsRow key (.error c) := nofun

theorem readsRow_reservedZero {key : BitVec 8} {ok : Bool} {j : Instr} (h : keyOf (encode j) = key) :
    ReadsRow key (reservedZero ok j) := by
  cases ok
  · exact readsRow_error _ _
  · exact readsRow_ok h

/-- A format with a coded operand reads its row, whatever value the code names. -/
theorem readsRow_named {α : Type} {key : BitVec 8} {reserved : Bool} {o : Option α} {k : α → Instr}
    (h : ∀ x, keyOf (encode (k x)) = key) :
    ReadsRow key (if reserved then named (o.map k) else .error .operand) := by
  cases reserved
  · exact readsRow_error _ _
  · cases o
    · exact readsRow_error _ _
    · exact readsRow_ok (h _)

/-- `unit` and `op` say which row a word is of: the decoder reads an instruction only under its own key (R101, R112). -/
theorem decodeRow_readsRow (key : BitVec 8) (a : Arg) : ReadsRow key (decodeRow key a) := by
  unfold decodeRow
  split
  all_goals
    simp only [fmtN, fmtB, fmtH, fmtW9, fmtR24, fmtF1, fmtF2, fmtParity, fmtA, fmtAS, fmtAQ, fmtS, fmtI, fmtX, fmtC,
      fmtCb, fmtXfer, readsRow_ok, readsRow_error, readsRow_reservedZero, readsRow_named, encode, keyOf_word, implies_true]

/-- The unit of a word is the high half of its key (R101). -/
theorem unitOf_eq_keyOf (w : Word) : unitOf w = (keyOf w).extractLsb' 4 4 := by
  rw [← unitOf_word (keyOf w) (argOf w), word_keyOf_argOf]

/-- Decoding keeps the unit: a word decodes to an instruction of the component and port it names (R101, R102). -/
theorem decode_unit {nsrc : Nat} {w : Word} {i : Instr} (h : decode nsrc w = .ok i) : unitOf (encode i) = unitOf w := by
  unfold decode at h
  cases hr : decodeRow (keyOf w) (argOf w) with
  | error c => simp [hr] at h
  | ok j =>
    obtain ⟨-, rfl⟩ : wellFormed nsrc j = true ∧ j = i := by simpa [hr, constrain, ite_eq_iff] using h
    rw [unitOf_eq_keyOf, decodeRow_readsRow _ _ _ hr, unitOf_eq_keyOf]

/-- An instruction of the EVT port carries an event unit, 8 to 10 (R102). -/
theorem decodeEvt_unit {nsrc : Nat} {w : Word} {i : Instr} (h : decodeEvt nsrc w = some i) :
    8 ≤ (unitOf (encode i)).toNat ∧ (unitOf (encode i)).toNat ≤ 10 := by
  obtain ⟨hu, hd⟩ : (8 ≤ (unitOf w).toNat ∧ (unitOf w).toNat ≤ 10) ∧ (decode nsrc w).toOption = some i := by
    simpa [decodeEvt] using h
  cases hk : decode nsrc w with
  | error c => simp [hk, Except.toOption] at hd
  | ok j =>
    obtain rfl : j = i := by simpa [hk, Except.toOption] using hd
    rwa [decode_unit hk]

end Sys2Proof
end

section
/-! What a step comes to, by its presentation, and the statement O5 (R10, R100, R311, R360). -/

namespace Sys2Proof.Machine

/-! ### What a step comes to, by its presentation -/

/-- The environment once the next presentation is taken from it (log 1). -/
def State.nextEnv (s : State) : Environment := (nextStimulus s).2.env

theorem nextStimulus_snd (s : State) : (nextStimulus s).2 = { s with env := s.nextEnv } := by
  obtain ⟨e, he⟩ := nextStimulus_keeps s
  rw [State.nextEnv, he]

/-- A presentation placed in the script is the next one. -/
theorem nextIn_of_script {s : State} {st : Stimulus} {rest : List Stimulus} (h : s.env.script = st :: rest) :
    s.nextIn = st := by
  simp [State.nextIn, nextStimulus, h]

theorem nextEnv_of_script {s : State} {st : Stimulus} {rest : List Stimulus} (h : s.env.script = st :: rest) :
    s.nextEnv = { s.env with script := rest } := by
  simp [State.nextEnv, nextStimulus, h]

/-- Without a script the step is that of the environment's choice placed in one (log 1). -/
theorem nextStimulus_of_no_script {s : State} (h : s.env.script = []) :
    nextStimulus s = nextStimulus
      { s with env.script := [Config.environment s.env.choices], env.choices := s.env.choices + 1 } := by
  simp [nextStimulus, h]

theorem step_congr {s t : State} (h : nextStimulus s = nextStimulus t) : step s = step t := by
  unfold step fetch
  rw [h]

theorem step_of_cmd {s : State} {w : Word} {m : BitVec 16} {i : Instr} (h : s.nextIn = .cmd w m)
    (hd : decodeCmd s.params.nsrc w = .ok i) : step s = exec i (s.presented { s.nextEnv with miso := m }) := by
  unfold State.nextIn at h
  simp only [step, fetch, h, nextStimulus_snd, present, presentCmd, endPulse, hd]
  rfl

theorem step_of_bad_cmd {s : State} {w : Word} {m : BitVec 16} {c : IllCode} (h : s.nextIn = .cmd w m)
    (hd : decodeCmd s.params.nsrc w = .error c) :
    step s = command (s.presented { s.nextEnv with miso := m })
      (.next (raiseIllegal c (s.presented { s.nextEnv with miso := m }))) := by
  unfold State.nextIn at h
  simp only [step, fetch, h, nextStimulus_snd, present, presentCmd, endPulse, hd]
  rfl

theorem step_of_evt {s : State} {w : Word} {i : Instr} (h : s.nextIn = .evt w)
    (hd : decodeEvt s.params.nsrc w = some i) : step s = exec i (s.presented s.nextEnv) := by
  unfold State.nextIn at h
  simp only [step, fetch, h, nextStimulus_snd, present, presentEvt, endPulse, hd]
  rfl

theorem step_of_bad_evt {s : State} {w : Word} (h : s.nextIn = .evt w) (hd : decodeEvt s.params.nsrc w = none) :
    step s = .next { s with env := s.nextEnv, out.evtIll := true } := by
  unfold State.nextIn at h
  simp only [step, fetch, h, nextStimulus_snd, present, presentEvt, endPulse, hd]

theorem step_of_resolve {s : State} (h : s.nextIn = .resolve) : step s = resolveTop (s.presented s.nextEnv) := by
  unfold State.nextIn at h
  simp only [step, fetch, h, nextStimulus_snd, present, endPulse]
  rfl

theorem step_of_rst {s : State} (h : s.nextIn = .rst) : step s = .next (resetStep (s.presented s.nextEnv)) := by
  unfold State.nextIn at h
  simp only [step, fetch, h, nextStimulus_snd, present, endPulse]
  rfl

/-- Settles O5: each kind of presentation, placed at the head of the script. -/
theorem stepRunsDecodedInstruction : Obligations.StepRunsDecodedInstruction := by
  intro s rest
  refine ⟨fun w m i hs hd => ?_, fun w i hs hd => ?_, fun hs => ?_, fun hs => ?_, fun hs => ?_⟩
  · rw [step_of_cmd (nextIn_of_script hs) hd, nextEnv_of_script hs]
    rfl
  · rw [step_of_evt (nextIn_of_script hs) hd, nextEnv_of_script hs]
    rfl
  · rw [step_of_resolve (nextIn_of_script hs), nextEnv_of_script hs]
    rfl
  · rw [step_of_rst (nextIn_of_script hs), nextEnv_of_script hs]
    rfl
  · exact step_congr (nextStimulus_of_no_script hs)

end Sys2Proof.Machine
end

section
/-! Safe steps, the statement O58: the primitives answer on the rings of the invariant, so a meaning that touches a ring has a
next state; what is left to fault is the showing of an unset SPI configuration (R14, R72, R136, R137, R378). -/

namespace Sys2Proof.Machine

/-! ### The primitives answer on a ring of the invariant (R72, R136, R137) -/

theorem State.RingsOk.ring {s : State} (h : s.RingsOk) (sp : Space) : (s.ring sp).Ok (s.modulus sp) := by
  obtain ⟨hutx, hurx, hitx, hirx⟩ := h
  cases sp <;> assumption

/-- The oldest byte of a ring that is not empty has been written (R143). -/
theorem Ring.Ok.tail_written {n : Nat} {r : Ring} (h : r.Ok n) (he : r.empty = false) :
    ∃ v, r.buf.at? r.tail = some v := by
  obtain ⟨hhead, htail, -, -, hwritten⟩ := h
  have hcount : 0 < r.count n := Nat.pos_of_ne_zero ((Ring.empty_eq_false_iff hhead htail).1 he)
  have hslot : r.slot n 0 = r.tail := Nat.mod_eq_of_lt htail
  exact Option.isSome_iff_exists.1 (hslot ▸ hwritten 0 hcount)

theorem pushTo_answers {sp : Space} {s : State} (h : s.RingsOk) (b : Byte) (hf : s.fullAt sp = false) :
    ∃ t, pushTo sp b s = .ok t :=
  ⟨_, pushTo_eq_ok.2 ⟨hf, (h.ring sp).1, rfl⟩⟩

theorem popFrom_answers {sp : Space} {s : State} (h : s.RingsOk) (he : s.emptyAt sp = false) :
    ∃ p, popFrom sp s = .ok p :=
  have ⟨v, hv⟩ := (h.ring sp).tail_written he
  ⟨(v, _), popFrom_eq_ok.2 ⟨he, (h.ring sp).2.1, hv, rfl⟩⟩

theorem frontOf_answers {sp : Space} {s : State} (h : s.RingsOk) (he : s.emptyAt sp = false) :
    ∃ v, frontOf sp s = .ok v :=
  have ⟨v, hv⟩ := (h.ring sp).tail_written he
  ⟨v, frontOf_eq_ok.2 ⟨he, (h.ring sp).2.1, hv⟩⟩

theorem markHead_answers {sp : Space} {s : State} (h : s.RingsOk) (v : Byte) : ∃ t, markHead sp v s = .ok t :=
  ⟨_, markHead_eq_ok.2 ⟨(h.ring sp).1, rfl⟩⟩

theorem queueTx_answers {s : State} (h : s.RingsOk) (b : Byte) (hf : s.fullAt .utx = false) :
    ∃ t, queueTx b s = .ok t :=
  ⟨_, queueTx_eq_ok.2 ⟨hf, (h.ring .utx).1, rfl⟩⟩

/-! ### Outcomes with a next state -/

/-- The outcome is a next state. -/
def Completes (o : Out State) : Prop := ∃ t, o = .next t

theorem completes_next (t : State) : Completes (.next t) := ⟨t, rfl⟩

theorem completes_refuse (s : State) : Completes (refuse s) := completes_next _

theorem completes_ite {c : Prop} [Decidable c] {a b : Out State} (ha : c → Completes a) (hb : ¬ c → Completes b) :
    Completes (if c then a else b) := by
  split
  · exact ha ‹c›
  · exact hb ‹¬ c›

theorem completes_command {s : State} {body : Out State} (h : s.cmdReady = true → Completes body) :
    Completes (command s body) :=
  completes_ite h fun _ => completes_next s

theorem completes_event {d : Bool} {s : State} {body : Out State} (h : Completes body) : Completes (event d s body) :=
  completes_ite (fun _ => h) fun _ => completes_next s

theorem completes_orFault {α : Type} {x : Except Fault α} {k : α → Out State} (hx : ∃ a, x = .ok a)
    (hk : ∀ a, Completes (k a)) : Completes (orFault x k) := by
  obtain ⟨a, rfl⟩ := hx
  exact hk a

/-! ### The meanings that touch a ring -/

section
variable {s : State}

theorem readFrom_completes (h : s.RingsOk) (sp : Space) : Completes (readFrom sp s) :=
  completes_ite (fun _ => completes_next _) fun he =>
    completes_orFault (popFrom_answers h (Bool.eq_false_iff.2 he)) fun _ => completes_next _

theorem peekAt_completes (h : s.RingsOk) (sp : Space) : Completes (peekAt sp s) :=
  completes_ite (fun _ => completes_next _) fun he =>
    completes_orFault (frontOf_answers h (Bool.eq_false_iff.2 he)) fun _ => completes_next _

theorem execUWrite_completes (h : s.RingsOk) (b : Byte) : Completes (execUWrite b s) :=
  completes_command fun _ => completes_ite
    (fun hf => completes_orFault (queueTx_answers h b (by simpa using hf)) fun _ => completes_next _)
    fun _ => completes_ite (fun _ => completes_next _) fun _ => completes_next _

theorem resolveUWrite_completes (h : s.RingsOk) (b : Byte) : Completes (resolveUWrite b s) :=
  completes_ite (fun _ => completes_next _) fun hf =>
    completes_orFault (queueTx_answers h b (Bool.eq_false_iff.2 hf)) fun _ => completes_next _

theorem execIWrite_completes (h : s.RingsOk) (b : Byte) : Completes (execIWrite b s) :=
  completes_command fun _ => completes_ite (fun _ => completes_next _) fun hf =>
    completes_orFault (pushTo_answers h b (Bool.eq_false_iff.2 hf)) fun _ => completes_next _

theorem execEvUTxrdy_completes (h : s.RingsOk) : Completes (execEvUTxrdy s) :=
  completes_event <| completes_ite (fun _ => completes_next _) fun he =>
    completes_orFault (popFrom_answers h (Bool.eq_false_iff.2 he)) fun _ => completes_next _

theorem execEvURxrdy_completes (h : s.RingsOk) (b : Byte) : Completes (execEvURxrdy b s) :=
  completes_event <| completes_ite (fun _ => completes_next _) fun hf =>
    completes_orFault (pushTo_answers h b (Bool.eq_false_iff.2 hf)) completes_next

/-- The data-ready event, role by role (R217 to R221). -/
theorem execEvIData_completes (h : s.RingsOk) (b : Byte) : Completes (execEvIData b s) := by
  refine completes_event ?_
  cases s.i2c.role with
  | idle => exact completes_next _
  | masterTx | slaveTx =>
    exact completes_ite (fun _ => completes_next _) fun he =>
      completes_orFault (popFrom_answers h (Bool.eq_false_iff.2 he)) fun _ => completes_next _
  | masterRx | slaveRx =>
    exact completes_ite (fun _ => completes_next _) fun hf =>
      completes_orFault (pushTo_answers h b (Bool.eq_false_iff.2 hf)) fun _ => completes_next _

/-- STOP detected: only the terminator of `SLAVE_RX` touches a ring (R228). -/
theorem ctrlStop_completes (h : s.RingsOk) : Completes (ctrlStop s) := by
  unfold ctrlStop
  cases s.i2c.role with
  | slaveRx =>
    exact completes_ite (fun _ => completes_next _) fun _ =>
      completes_orFault (markHead_answers h s.params.terminator) fun _ => completes_next _
  | slaveTx | idle | masterTx | masterRx => exact completes_next _

theorem execEvICtrl_completes (h : s.RingsOk) (cause : CtrlCause) (dir : Bool) : Completes (execEvICtrl cause dir s) := by
  refine completes_event ?_
  cases cause with
  | al => exact completes_next _
  | nack => exact completes_ite (fun _ => completes_next _) fun _ => completes_next _
  | start =>
    refine completes_ite (fun _ => completes_ite (fun _ => ?_) fun _ => completes_next _) fun _ => completes_next _
    exact completes_ite (fun _ => completes_next _) fun _ => completes_next _
  | stop => exact ctrlStop_completes h

/-- Every wait resolution has a next state: of the six only `W_U_WRITE` touches a ring (R311). -/
theorem resolveTop_completes (h : s.RingsOk) : Completes (resolveTop s) := by
  unfold resolveTop
  cases s.sys.ctx.top.wait with
  | none => exact completes_next _
  | uWrite b => exact resolveUWrite_completes h b
  | uFlush => exact completes_ite (fun _ => completes_next _) fun _ => completes_next _
  | iAddr k =>
    exact completes_ite (fun _ => completes_next _) fun _ => completes_ite (fun _ => completes_next _) fun _ =>
      completes_ite (fun _ => completes_next _) fun _ => completes_next _
  | iDone k => exact completes_ite (fun _ => completes_next _) fun _ => completes_next _
  | iStop k => exact completes_ite (fun _ => completes_next _) fun _ => completes_next _
  | sBegin2 set => exact completes_next _

theorem execSysIret_completes : Completes (execSysIret s) := by
  refine completes_command fun _ => ?_
  cases leaveWindow s with
  | none => exact completes_refuse s
  | some t => exact completes_next _

end

/-! ### The commands that show the SPI configuration (R14, R47, R378) -/

/-- A transfer would show a bit order or a data mode that holds no value. -/
def State.xferUnset (s : State) : Prop :=
  s.spi.en = true ∧ (s.spi.cfg.order.known = false ∨ s.spi.cfg.mode.known = false)

/-- `S_GETCFG` would show a component that holds no value. -/
def State.cfgUnset (s : State) : Prop :=
  s.spi.cfg.div.known = false ∨ s.spi.cfg.order.known = false ∨ s.spi.cfg.mode.known = false

/-- In state `s` the instruction would show an SPI configuration that holds no value. -/
def ShowsUnset (s : State) : Instr → Prop
  | .sGetcfg => s.cfgUnset
  | .sXfer _ => s.xferUnset
  | .sXfer16 _ => s.xferUnset
  | .sXfer9 _ => s.xferUnset
  | _ => False

/-- Only SPI commands show the configuration. -/
theorem ShowsUnset.unit {s : State} {i : Instr} (h : ShowsUnset s i) : unitOf (encode i) = 3#4 := by
  cases i
  case sGetcfg | sXfer | sXfer16 | sXfer9 => simp only [encode, unitOf_word]; rfl
  all_goals exact h.elim

theorem Field.get?_of_known {α : Type} {f : Field α} (h : f.known = true) : f.get? = some f.val := if_pos h

theorem spiTransfer_completes {s : State} (h : ¬ s.xferUnset) (len : XferLen) (v : BitVec 16) (r : Word) :
    Completes (spiTransfer len v r s) := by
  refine completes_ite (fun _ => completes_refuse s) fun hen => ?_
  obtain ⟨horder, hmode⟩ : s.spi.cfg.order.known = true ∧ s.spi.cfg.mode.known = true := by
    simpa [State.xferUnset, show s.spi.en = true by simpa using hen] using h
  rw [Field.get?_of_known horder, Field.get?_of_known hmode]
  exact completes_next _

theorem spiTransfer_of_unset {s : State} (h : s.xferUnset) (len : XferLen) (v : BitVec 16) (r : Word) :
    spiTransfer len v r s = .fault (.noValue .spiCfg) := by
  obtain ⟨hen, horder | hmode⟩ := h
  · simp [spiTransfer, hen, Field.get?_eq_none.2 horder]
  · cases ho : s.spi.cfg.order.get? <;> simp [spiTransfer, hen, ho, Field.get?_eq_none.2 hmode]

theorem execSGetcfg_completes {s : State} (h : ¬ (s.cmdReady = true ∧ s.cfgUnset)) : Completes (execSGetcfg s) := by
  refine completes_command fun hready => ?_
  obtain ⟨hdiv, horder, hmode⟩ :
      s.spi.cfg.div.known = true ∧ s.spi.cfg.order.known = true ∧ s.spi.cfg.mode.known = true := by
    simpa [State.cfgUnset, hready] using h
  rw [Field.get?_of_known hdiv, Field.get?_of_known horder, Field.get?_of_known hmode]
  exact completes_next _

theorem execSGetcfg_of_unset {s : State} (hready : s.cmdReady = true) (h : s.cfgUnset) :
    execSGetcfg s = .fault (.noValue .spiCfg) := by
  unfold execSGetcfg
  rw [command_of_ready hready]
  rcases h with hdiv | horder | hmode
  · simp [Field.get?_eq_none.2 hdiv]
  · cases hd : s.spi.cfg.div.get? <;> simp [Field.get?_eq_none.2 horder]
  · cases hd : s.spi.cfg.div.get? <;> cases ho : s.spi.cfg.order.get? <;> simp [Field.get?_eq_none.2 hmode]

/-! ### Every instruction -/

/-- Progress of the meanings: with the rings as the invariant has them, an instruction has a next state, unless it is an
accepted command that would show an unset SPI configuration. -/
theorem exec_completes {i : Instr} {s : State} (hr : s.RingsOk) (hu : ¬ (s.cmdReady = true ∧ ShowsUnset s i)) :
    Completes (exec i s) := by
  cases i
  case uWrite b => exact execUWrite_completes hr b
  case uRead => exact completes_command fun _ => readFrom_completes hr .urx
  case uPeek => exact completes_command fun _ => peekAt_completes hr .urx
  case iWrite b => exact execIWrite_completes hr b
  case iRead => exact completes_command fun _ => readFrom_completes hr .irx
  case iPeek => exact completes_command fun _ => peekAt_completes hr .irx
  case evUTxrdy => exact execEvUTxrdy_completes hr
  case evURxrdy b => exact execEvURxrdy_completes hr b
  case evIData b => exact execEvIData_completes hr b
  case evICtrl cause dir => exact execEvICtrl_completes hr cause dir
  case sXfer | sXfer16 | sXfer9 =>
    exact completes_command fun hready => spiTransfer_completes (fun h => hu ⟨hready, h⟩) _ _ _
  case sGetcfg => exact execSGetcfg_completes hu
  case sysIret => exact execSysIret_completes
  case iBegin | iEnd | iBegintx | iEndtx =>
    exact completes_command fun _ => completes_ite (fun _ => completes_refuse s) fun _ => completes_next _
  case iReqfrom =>
    exact completes_command fun _ => completes_ite (fun _ => completes_refuse s) fun _ =>
      completes_ite (fun _ => completes_next _) fun _ => completes_next _
  case uFlush | sBegintrans =>
    exact completes_command fun _ => completes_ite (fun _ => completes_next _) fun _ => completes_next _
  case sEndtrans =>
    exact completes_command fun _ => completes_ite (fun _ => completes_refuse s) fun _ => completes_next _
  case evUBreak | evIAddrack =>
    exact completes_event <| completes_ite (fun _ => completes_next _) fun _ => completes_next _
  case evXint | evIStopdone => exact completes_event (completes_next _)
  case evTick | oCb | oUTx | oIStart | oITx | oIStop | oINack | oSXfer => exact completes_next _
  all_goals exact completes_command fun _ => completes_next _

/-- An accepted command that would show an unset SPI configuration faults (R14, R378). -/
theorem exec_of_showsUnset {i : Instr} {s : State} (hready : s.cmdReady = true) (h : ShowsUnset s i) :
    exec i s = .fault (.noValue .spiCfg) := by
  cases i
  case sGetcfg => exact execSGetcfg_of_unset hready h
  case sXfer | sXfer16 | sXfer9 => exact (command_of_ready hready).trans (spiTransfer_of_unset h _ _ _)
  all_goals exact h.elim

/-- An event has a next state: it shows no configuration. -/
theorem exec_evt_completes {nsrc : Nat} {w : Word} {i : Instr} {s : State} (hr : s.RingsOk)
    (hd : decodeEvt nsrc w = some i) : Completes (exec i s) := by
  refine exec_completes hr fun ⟨_, hu⟩ => ?_
  have hunit := (decodeEvt_unit hd).1
  rw [hu.unit] at hunit
  exact absurd hunit (by decide)

/-! ### Every step -/

theorem accepts_iff {s : State} {i : Instr} :
    s.accepts i ↔ ∃ w m, s.nextIn = .cmd w m ∧ decodeCmd s.params.nsrc w = .ok i ∧ s.cmdReady = true := by
  unfold State.accepts
  cases s.nextIn <;> simp

/-- The step about to be made accepts a command that would show an unset SPI configuration. -/
def State.faultsNext (s : State) : Prop := ∃ i, s.accepts i ∧ ShowsUnset s i

/-- The commands of `faultsNext`, one by one. -/
theorem faultsNext_iff {s : State} :
    s.faultsNext ↔ (s.accepts .sGetcfg ∧ s.cfgUnset)
      ∨ ((∃ b, s.accepts (.sXfer b)) ∨ (∃ h, s.accepts (.sXfer16 h)) ∨ ∃ n, s.accepts (.sXfer9 n)) ∧ s.xferUnset := by
  constructor
  · rintro ⟨i, ha, hu⟩
    cases i
    case sGetcfg => exact .inl ⟨ha, hu⟩
    case sXfer b => exact .inr ⟨.inl ⟨b, ha⟩, hu⟩
    case sXfer16 h => exact .inr ⟨.inr (.inl ⟨h, ha⟩), hu⟩
    case sXfer9 n => exact .inr ⟨.inr (.inr ⟨n, ha⟩), hu⟩
    all_goals exact hu.elim
  · rintro (⟨ha, hu⟩ | ⟨⟨b, ha⟩ | ⟨h, ha⟩ | ⟨n, ha⟩, hu⟩)
    · exact ⟨_, ha, hu⟩
    · exact ⟨_, ha, hu⟩
    · exact ⟨_, ha, hu⟩
    · exact ⟨_, ha, hu⟩

theorem step_of_faultsNext {s : State} (h : s.faultsNext) : step s = .fault (.noValue .spiCfg) := by
  obtain ⟨i, ha, hu⟩ := h
  obtain ⟨w, m, hn, hd, hready⟩ := accepts_iff.1 ha
  rw [step_of_cmd hn hd]
  exact exec_of_showsUnset (s := s.presented _) hready hu

/-- Progress of the step, by its presentation. Taking it moves no ring and no configuration. -/
theorem step_completes {s : State} (hr : s.RingsOk) (h : ¬ s.faultsNext) : Completes (step s) := by
  cases hn : s.nextIn with
  | rst => exact ⟨_, step_of_rst hn⟩
  | cmd w m =>
    cases hd : decodeCmd s.params.nsrc w with
    | ok i =>
      rw [step_of_cmd hn hd]
      exact exec_completes (s := s.presented _) hr fun ⟨hready, hu⟩ =>
        h ⟨i, accepts_iff.2 ⟨w, m, hn, hd, hready⟩, hu⟩
    | error c =>
      rw [step_of_bad_cmd hn hd]
      exact completes_command fun _ => completes_next _
  | evt w =>
    cases hd : decodeEvt s.params.nsrc w with
    | some i =>
      rw [step_of_evt hn hd]
      exact exec_evt_completes (s := s.presented _) hr hd
    | none => exact ⟨_, step_of_bad_evt hn hd⟩
  | resolve =>
    rw [step_of_resolve hn]
    exact resolveTop_completes (s := s.presented _) hr

/-- Settles O58: only an accepted command that shows an unset SPI configuration faults, and every other step has a next
state, because the rings of the invariant answer every primitive a rule executes on them. -/
theorem stepIsSafe : Obligations.StepIsSafe := by
  intro s hinv
  obtain ⟨-, hr, -⟩ := hinv
  have hiff : step s = .fault (.noValue .spiCfg) ↔ s.faultsNext := by
    refine ⟨fun hf => by_contra fun h => ?_, step_of_faultsNext⟩
    obtain ⟨t, ht⟩ := step_completes hr h
    rw [hf] at ht
    cases ht
  refine ⟨?_, hiff.trans faultsNext_iff⟩
  by_cases h : s.faultsNext
  · exact .inr (step_of_faultsNext h)
  · exact .inl (step_completes hr h)

end Sys2Proof.Machine
end

section
/-! Outcomes all of whose next states have a property, the frame of the ring primitives, and the operands the decoder lets
through: what the statements about every step share (R13, R111, R307, R325). -/

namespace Sys2Proof

/-! ### The decoder lets only well-formed instructions through (R111, R112 step 5) -/

theorem wellFormed_of_decode {nsrc : Nat} {w : Word} {i : Instr} (h : decode nsrc w = .ok i) :
    wellFormed nsrc i = true := by
  unfold decode at h
  cases hr : decodeRow (keyOf w) (argOf w) with
  | error c => simp [hr] at h
  | ok j =>
    obtain ⟨hwf, rfl⟩ : wellFormed nsrc j = true ∧ j = i := by simpa [hr, constrain, ite_eq_iff] using h
    exact hwf

theorem wellFormed_of_decodeCmd {nsrc : Nat} {w : Word} {i : Instr} (h : decodeCmd nsrc w = .ok i) :
    wellFormed nsrc i = true := by
  unfold decodeCmd at h
  split at h
  · cases h
  · exact wellFormed_of_decode h

theorem wellFormed_of_decodeEvt {nsrc : Nat} {w : Word} {i : Instr} (h : decodeEvt nsrc w = some i) :
    wellFormed nsrc i = true := by
  unfold decodeEvt at h
  split at h
  · cases hd : decode nsrc w with
    | error c => simp [hd, Except.toOption] at h
    | ok j =>
      obtain rfl : j = i := by simpa [hd, Except.toOption] using h
      exact wellFormed_of_decode hd
  · cases h

end Sys2Proof

namespace Sys2Proof.Machine

/-! ### Outcomes all of whose next states have a property -/

/-- If the outcome is a next state, `P` holds there. -/
def Ensures (P : State → Prop) (o : Out State) : Prop := ∀ t, o = .next t → P t

section
variable {P : State → Prop} {s : State}

theorem ensures_next (h : P s) : Ensures P (.next s) := by
  rintro t ⟨⟩
  exact h

theorem ensures_fault (f : Fault) : Ensures P (.fault f) := by
  rintro t ⟨⟩

theorem ensures_ite {c : Prop} [Decidable c] {a b : Out State} (ha : c → Ensures P a) (hb : ¬ c → Ensures P b) :
    Ensures P (if c then a else b) := by
  split
  · exact ha ‹c›
  · exact hb ‹¬ c›

/-- A command that is not accepted leaves the state (R307), so `P` must hold there. -/
theorem ensures_command {body : Out State} (hs : P s) (h : s.cmdReady = true → Ensures P body) :
    Ensures P (command s body) :=
  ensures_ite h fun _ => ensures_next hs

/-- An event that is not deliverable leaves the state (R325), so `P` must hold there. -/
theorem ensures_event {d : Bool} {body : Out State} (hs : P s) (h : d = true → Ensures P body) :
    Ensures P (event d s body) :=
  ensures_ite h fun _ => ensures_next hs

theorem ensures_orFault {α : Type} {x : Except Fault α} {k : α → Out State} (h : ∀ a, x = .ok a → Ensures P (k a)) :
    Ensures P (orFault x k) := by
  intro t ht
  obtain ⟨a, hx, hk⟩ := orFault_eq_next.1 ht
  exact h a hx t hk

end

/-! ### What the ring primitives leave unchanged (R136, R137, R228) -/

/-- The system unit and the outputs are as before. -/
def SameFrame (s t : State) : Prop := t.sys = s.sys ∧ t.out = s.out

theorem SameFrame.sys {s t : State} (h : SameFrame s t) : t.sys = s.sys := h.1

theorem setRing_sameFrame (s : State) (sp : Space) (r : Ring) : SameFrame s (s.setRing sp r) :=
  ⟨setRing_sys .., setRing_out ..⟩

theorem pushTo_sameFrame {sp : Space} {b : Byte} {s t : State} (h : pushTo sp b s = .ok t) : SameFrame s t := by
  obtain ⟨-, -, rfl⟩ := pushTo_eq_ok.1 h
  exact setRing_sameFrame ..

theorem popFrom_sameFrame {sp : Space} {v : Byte} {s t : State} (h : popFrom sp s = .ok (v, t)) : SameFrame s t := by
  obtain ⟨-, -, -, rfl⟩ := popFrom_eq_ok.1 h
  exact setRing_sameFrame ..

theorem markHead_sameFrame {sp : Space} {v : Byte} {s t : State} (h : markHead sp v s = .ok t) : SameFrame s t := by
  obtain ⟨-, rfl⟩ := markHead_eq_ok.1 h
  exact setRing_sameFrame ..

theorem queueTx_sameFrame {b : Byte} {s t : State} (h : queueTx b s = .ok t) : SameFrame s t := by
  obtain ⟨-, -, rfl⟩ := queueTx_eq_ok.1 h
  exact ⟨rfl, rfl⟩

end Sys2Proof.Machine
end

section
/-! The status words, field by field: O15, O16, O27, O34, O48 (R42 to R47). A status word is a concatenation, so a bit or a
field of it is reached by dropping the parts above it and below it. -/

namespace Sys2Proof.Machine

/-! ### Bits and codes -/

/-- A bit of the low part of a concatenation. -/
theorem getLsbD_low {a b : Nat} (x : BitVec a) (y : BitVec b) {i : Nat} (h : i < b) :
    (x ++ y).getLsbD i = y.getLsbD i := by
  rw [BitVec.getLsbD_append, if_pos h]

/-- A bit of the high part of a concatenation. -/
theorem getLsbD_high {a b : Nat} (x : BitVec a) (y : BitVec b) {i : Nat} (h : b ≤ i) :
    (x ++ y).getLsbD i = x.getLsbD (i - b) := by
  rw [BitVec.getLsbD_append, if_neg (by omega)]

/-- A flag as a word of one bit. -/
theorem getLsbD_bit (b : Bool) {i : Nat} (h : i = 0) : (bit b).getLsbD i = b := by
  subst h
  cases b <;> rfl

/-- A whole part of a concatenation, once the parts around it are dropped. -/
theorem extract_whole {a : Nat} (x : BitVec a) {lo : Nat} (h : lo = 0) : x.extractLsb' lo a = x := by
  rw [h, extract_all]

theorem Parity.code_toNat (p : Parity) : p.code.toNat = match p with | .none => 0 | .odd => 1 | .even => 2 := by
  cases p <;> rfl

theorem IrqMode.code_toNat (m : IrqMode) : m.code.toNat = match m with | .none => 0 | .one => 1 | .all => 2 := by
  cases m <;> rfl

theorem Role.code_toNat (r : Role) : r.code.toNat
    = match r with | .idle => 0 | .masterTx => 1 | .masterRx => 2 | .slaveTx => 3 | .slaveRx => 4 := by
  cases r <;> rfl

theorem I2cErr.code_toNat (e : I2cErr) : e.code.toNat
    = match e with | .none => 0 | .addrNack => 1 | .dataNack => 2 | .busBusy => 3 := by
  cases e <;> rfl

theorem Phase.code_toNat (p : Phase) : p.code.toNat = match p with | .none => 0 | .addr => 1 | .data => 2 := by
  cases p <;> rfl

theorem I2cMode.code_bit (m : I2cMode) : m.code.getLsbD 0 = true ↔ m = .slave := by cases m <;> decide

theorem State.inWindow_iff {s : State} : s.inWindow = true ↔ s.sys.ctx.top.kind ≠ .fg := bne_iff_ne

/-- A count fits its 8-bit field in a ring of a modulus R7 allows (R44). -/
theorem Ring.count_fits {n : Nat} (r : Ring) (hpos : 0 < n) (hn : n ≤ 256) : (countByte (r.count n)).toNat = r.count n := by
  have hlt : r.count n < n := Nat.mod_lt _ hpos
  rw [countByte, BitVec.toNat_ofNat]
  exact Nat.mod_eq_of_lt (by omega)

/-! ### The words -/

theorem sysStatus_bits (s : State) :
    s.sysStatus.getLsbD 0 = s.sys.gie ∧ s.sysStatus.extractLsb' 8 8 = BitVec.ofNat 8 (min s.sys.ctx.depth 255)
      ∧ s.sysStatus.getLsbD 16 = s.inWindow
      ∧ ∀ i, i < 32 → i ≠ 0 → ¬ (8 ≤ i ∧ i ≤ 15) → i ≠ 16 → s.sysStatus.getLsbD i = false := by
  unfold State.sysStatus
  refine ⟨?_, ?_, ?_, fun i hi h0 h8 h16 => ?_⟩
  · simp (disch := omega) only [getLsbD_low, getLsbD_bit]
  · simp (disch := omega) only [extract_low, extract_high, extract_whole]
  · simp (disch := omega) only [getLsbD_low, getLsbD_high, getLsbD_bit]
  · rcases (by omega : i < 8 ∨ 17 ≤ i) with hlow | hhigh
    · simp (disch := omega) only [getLsbD_low, getLsbD_high, BitVec.getLsbD_zero]
    · simp (disch := omega) only [getLsbD_high, BitVec.getLsbD_zero]

/-- Settles O15. -/
theorem sysStatusWord : Obligations.SysStatusWord := by
  intro s hready
  obtain ⟨hgie, hdepth, hwindow, hzero⟩ := sysStatus_bits s
  refine ⟨s.sysStatus, command_of_ready hready, hgie, ?_, by rw [hwindow, State.inWindow_iff], hzero⟩
  rw [hdepth, BitVec.toNat_ofNat]
  exact Nat.mod_eq_of_lt (Nat.lt_succ_of_le (Nat.min_le_right _ _))

/-- The mask holds one bit for each source that exists. -/
theorem getLsbD_sourceMask (s : State) (i : Nat) : s.sourceMask.getLsbD i = decide (i < 32 ∧ i < s.params.nsrc) := by
  rw [State.sourceMask, BitVec.getLsbD_ofNat, Nat.testBit_two_pow_sub_one, Bool.decide_and]

/-- The enables of the sources that exist (R43). -/
theorem getLsbD_xieStatus (s : State) (i : Nat) :
    s.xieStatus.getLsbD i = (decide (i < s.params.nsrc) && s.sys.xie.getLsbD i) := by
  rw [State.xieStatus, BitVec.getLsbD_and, getLsbD_sourceMask, Bool.and_comm]
  by_cases hi : i < 32
  · simp [hi]
  · simp [BitVec.getLsbD_of_ge _ _ (Nat.not_lt.1 hi)]

/-- Settles O16. -/
theorem sysXieWord : Obligations.SysXieWord := fun s hready =>
  ⟨s.xieStatus, command_of_ready hready, getLsbD_xieStatus s⟩

theorem uartCaps_bits : uartCaps.getLsbD 0 = true ∧ uartCaps.getLsbD 1 = true ∧ uartCaps.getLsbD 2 = true
    ∧ uartCaps.getLsbD 3 = false ∧ uartCaps.getLsbD 4 = true ∧ ∀ i, 4 < i → uartCaps.getLsbD i = false := by
  refine ⟨rfl, rfl, rfl, rfl, rfl, fun i hi => ?_⟩
  have hsmall : uartCaps.toNat < 2 ^ i := Nat.lt_of_lt_of_le (by decide) (Nat.pow_le_pow_right (by decide) hi)
  exact Nat.testBit_lt_two_pow hsmall

theorem uartStatus_bits (s : State) :
    s.uartStatus.getLsbD 0 = s.uart.held ∧ s.uartStatus.getLsbD 1 = s.uart.rxie ∧ s.uartStatus.getLsbD 2 = s.uart.txie
      ∧ s.uartStatus.getLsbD 3 = s.uart.bits7 ∧ s.uartStatus.getLsbD 4 = s.uart.stop2
      ∧ s.uartStatus.getLsbD 7 = s.uart.cbBrk := by
  unfold State.uartStatus
  refine ⟨?_, ?_, ?_, ?_, ?_, ?_⟩
  all_goals simp (disch := omega) only [getLsbD_low, getLsbD_high, getLsbD_bit]

theorem uartStatus_fields (s : State) :
    s.uartStatus.extractLsb' 5 2 = s.uart.parity.code ∧ s.uartStatus.extractLsb' 8 8 = countByte (s.countAt .utx)
      ∧ s.uartStatus.extractLsb' 16 8 = countByte (s.countAt .urx) ∧ s.uartStatus.extractLsb' 24 8 = 0#8 := by
  unfold State.uartStatus
  refine ⟨?_, ?_, ?_, ?_⟩
  all_goals simp (disch := omega) only [extract_low, extract_high, extract_whole]

/-- Settles O27. -/
theorem uartStatusWords : Obligations.UartStatusWords := by
  intro s hready
  refine ⟨⟨uartCaps, command_of_ready hready, rfl, uartCaps_bits⟩, fun hutx hutx' hurx hurx' => ?_⟩
  obtain ⟨hheld, hrxie, htxie, hbits7, hstop2, hcbBrk⟩ := uartStatus_bits s
  obtain ⟨hparity, hcountUtx, hcountUrx, hzero⟩ := uartStatus_fields s
  refine ⟨s.uartStatus, command_of_ready hready, hheld, hrxie, htxie, hbits7, hstop2, ?_, hcbBrk, ?_, ?_, hzero⟩
  · rw [hparity]
    exact Parity.code_toNat _
  · rw [hcountUtx]
    exact Ring.count_fits s.uart.utx hutx hutx'
  · rw [hcountUrx]
    exact Ring.count_fits s.uart.urx hurx hurx'

theorem i2cStatus_bits (s : State) :
    s.i2cStatus.getLsbD 7 = s.i2c.stp ∧ s.i2cStatus.getLsbD 8 = s.i2c.mode.code.getLsbD 0
      ∧ s.i2cStatus.getLsbD 9 = s.i2c.en ∧ s.i2cStatus.getLsbD 10 = s.i2c.cbReq
      ∧ s.i2cStatus.getLsbD 11 = s.i2c.cbRcv := by
  unfold State.i2cStatus
  refine ⟨?_, ?_, ?_, ?_, ?_⟩
  all_goals simp (disch := omega) only [getLsbD_low, getLsbD_high, getLsbD_bit]

theorem i2cStatus_fields (s : State) :
    s.i2cStatus.extractLsb' 0 3 = s.i2c.role.code ∧ s.i2cStatus.extractLsb' 3 2 = s.i2c.err.code
      ∧ s.i2cStatus.extractLsb' 5 2 = s.i2c.phase.code ∧ s.i2cStatus.extractLsb' 12 4 = 0#4
      ∧ s.i2cStatus.extractLsb' 16 8 = s.i2c.got ∧ s.i2cStatus.extractLsb' 24 8 = s.i2c.expect := by
  unfold State.i2cStatus
  refine ⟨?_, ?_, ?_, ?_, ?_, ?_⟩
  all_goals simp (disch := omega) only [extract_low, extract_high, extract_whole]

/-- Settles O34. -/
theorem i2cStatusWord : Obligations.I2cStatusWord := by
  intro s hready
  obtain ⟨hstp, hmode, hen, hcbReq, hcbRcv⟩ := i2cStatus_bits s
  obtain ⟨hrole, herr, hphase, hzero, hgot, hexpect⟩ := i2cStatus_fields s
  refine ⟨s.i2cStatus, command_of_ready hready, ?_, ?_, ?_, hstp, ?_, hen, hcbReq, hcbRcv, hzero, hgot, hexpect⟩
  · rw [hrole]
    exact Role.code_toNat _
  · rw [herr]
    exact I2cErr.code_toNat _
  · rw [hphase]
    exact Phase.code_toNat _
  · rw [hmode, I2cMode.code_bit]

section
variable (s : State) (div : BitVec 16) (order : Bool) (mode : BitVec 2)

theorem spiStatus_bits :
    (s.spiStatus div order mode).getLsbD 16 = order ∧ (s.spiStatus div order mode).getLsbD 19 = s.spi.lock
      ∧ (s.spiStatus div order mode).getLsbD 20 = s.spi.en ∧ (s.spiStatus div order mode).getLsbD 21 = s.spi.masked := by
  unfold State.spiStatus
  refine ⟨?_, ?_, ?_, ?_⟩
  all_goals simp (disch := omega) only [getLsbD_low, getLsbD_high, getLsbD_bit]

theorem spiStatus_fields :
    (s.spiStatus div order mode).extractLsb' 0 16 = div ∧ (s.spiStatus div order mode).extractLsb' 17 2 = mode
      ∧ (s.spiStatus div order mode).extractLsb' 22 2 = s.spi.irqMode.code
      ∧ (s.spiStatus div order mode).extractLsb' 24 8 = 0#8 := by
  unfold State.spiStatus
  refine ⟨?_, ?_, ?_, ?_⟩
  all_goals simp (disch := omega) only [extract_low, extract_high, extract_whole]

end

/-- `S_GETCFG` with a configuration that holds a value (R275). -/
theorem execSGetcfg_of_known {s : State} {div : BitVec 16} {order : Bool} {mode : BitVec 2} (hready : s.cmdReady = true)
    (hcfg : s.spi.cfg = ⟨⟨div, true⟩, ⟨order, true⟩, ⟨mode, true⟩⟩) :
    execSGetcfg s = .next (respond (s.spiStatus div order mode) s) := by
  rw [execSGetcfg, command_of_ready hready, hcfg]
  rfl

/-- Settles O48. -/
theorem spiConfigurationWord : Obligations.SpiConfigurationWord := by
  intro s hready
  refine ⟨fun div order mode hcfg => ?_, execSGetcfg_of_unset hready⟩
  obtain ⟨horder, hlock, hen, hmasked⟩ := spiStatus_bits s div order mode
  obtain ⟨hdiv, hmode, hirq, hzero⟩ := spiStatus_fields s div order mode
  refine ⟨s.spiStatus div order mode, execSGetcfg_of_known hready hcfg, ?_⟩
  refine ⟨hdiv, horder, hmode, hlock, hen, hmasked, ?_, hzero⟩
  rw [hirq]
  exact IrqMode.code_toNat _

end Sys2Proof.Machine
end

section
/-! What a step puts out and what it does to `gie`: O53, O54 (R21, R25, R113, R331). All but the five writers of `gie` do one of
three things: nothing to either, one output word, or the opening of a window. -/

namespace Sys2Proof.Machine

/-! ### The effect on `gie` and on the trace -/

/-- What an instruction that is no writer of `gie`, or a wait resolution, does to `gie` and to the trace. -/
inductive OutputEffect (s t : State) : Prop where
  | silent (hgie : t.sys.gie = s.sys.gie) (htrace : t.out.trace = s.out.trace)
  | emits (w : Word) (hgie : t.sys.gie = s.sys.gie) (htrace : t.out.trace = s.out.trace ++ [w])
  | opens (w : Word) (hgie : t.sys.gie = false) (hbelow : t.sys.ctx.below = s.sys.ctx.top :: s.sys.ctx.below)
      (htrace : t.out.trace = s.out.trace ++ [w])

/-- The effect of what follows a ring primitive is the effect of the whole. -/
theorem SameFrame.effect {s t u : State} (h : SameFrame s t) (he : OutputEffect t u) : OutputEffect s u := by
  obtain ⟨hsys, hout⟩ := h
  cases he with
  | silent hgie htrace => exact .silent (hsys ▸ hgie) (hout ▸ htrace)
  | emits w hgie htrace => exact .emits w (hsys ▸ hgie) (hout ▸ htrace)
  | opens w hgie hbelow htrace => exact .opens w hgie (hsys ▸ hbelow) (hout ▸ htrace)

section
variable {s : State}

theorem unchanged_effect (s : State) : OutputEffect s s := .silent rfl rfl

theorem readFrom_effect (sp : Space) (s : State) : Ensures (OutputEffect s) (readFrom sp s) :=
  ensures_ite (fun _ => ensures_next (.silent rfl rfl)) fun _ => ensures_orFault fun _ hpop =>
    ensures_next ((popFrom_sameFrame hpop).effect (.silent rfl rfl))

theorem peekAt_effect (sp : Space) (s : State) : Ensures (OutputEffect s) (peekAt sp s) :=
  ensures_ite (fun _ => ensures_next (.silent rfl rfl)) fun _ => ensures_orFault fun _ _ => ensures_next (.silent rfl rfl)

theorem execUWrite_effect (b : Byte) (s : State) : Ensures (OutputEffect s) (execUWrite b s) :=
  ensures_command (unchanged_effect s) fun _ => ensures_ite
    (fun _ => ensures_orFault fun _ hq => ensures_next ((queueTx_sameFrame hq).effect (.silent rfl rfl)))
    fun _ => ensures_ite (fun _ => ensures_next (.silent rfl rfl)) fun _ => ensures_next (.silent rfl rfl)

theorem execIWrite_effect (b : Byte) (s : State) : Ensures (OutputEffect s) (execIWrite b s) :=
  ensures_command (unchanged_effect s) fun _ => ensures_ite (fun _ => ensures_next (.silent rfl rfl)) fun _ =>
    ensures_orFault fun _ hpush => ensures_next ((pushTo_sameFrame hpush).effect (.silent rfl rfl))

theorem spiTransfer_effect (len : XferLen) (v : BitVec 16) (r : Word) (s : State) :
    Ensures (OutputEffect s) (spiTransfer len v r s) := by
  refine ensures_ite (fun _ => ensures_next (.silent rfl rfl)) fun _ => ?_
  split
  · exact ensures_next (.emits _ rfl rfl)
  · exact ensures_fault _

theorem execSGetcfg_effect (s : State) : Ensures (OutputEffect s) (execSGetcfg s) := by
  refine ensures_command (unchanged_effect s) fun _ => ?_
  split
  · exact ensures_next (.silent rfl rfl)
  · exact ensures_fault _

theorem execEvUTxrdy_effect (s : State) : Ensures (OutputEffect s) (execEvUTxrdy s) :=
  ensures_event (unchanged_effect s) fun _ => ensures_ite (fun _ => ensures_next (.silent rfl rfl)) fun _ =>
    ensures_orFault fun _ hpop => ensures_next ((popFrom_sameFrame hpop).effect (.emits _ rfl rfl))

theorem execEvURxrdy_effect (b : Byte) (s : State) : Ensures (OutputEffect s) (execEvURxrdy b s) :=
  ensures_event (unchanged_effect s) fun _ => ensures_ite (fun _ => ensures_next (unchanged_effect s)) fun _ =>
    ensures_orFault fun _ hpush => ensures_next ((pushTo_sameFrame hpush).effect (unchanged_effect _))

/-- A counted byte pre-arms STOP at most (R219). -/
theorem countRx_effect (s : State) : OutputEffect s (countRx s) := by
  dsimp only [countRx]
  split
  · exact .silent rfl rfl
  · split
    · exact .emits _ rfl rfl
    · exact .silent rfl rfl

/-- The data-ready event, role by role (R217 to R221). -/
theorem execEvIData_effect (b : Byte) (s : State) : Ensures (OutputEffect s) (execEvIData b s) := by
  refine ensures_event (unchanged_effect s) fun _ => ?_
  cases s.i2c.role with
  | idle => exact ensures_next (unchanged_effect s)
  | masterTx | slaveTx =>
    exact ensures_ite (fun _ => ensures_next (.emits _ rfl rfl)) fun _ =>
      ensures_orFault fun _ hpop => ensures_next ((popFrom_sameFrame hpop).effect (.emits _ rfl rfl))
  | masterRx =>
    exact ensures_ite (fun _ => ensures_next (countRx_effect s)) fun _ =>
      ensures_orFault fun _ hpush => ensures_next ((pushTo_sameFrame hpush).effect (countRx_effect _))
  | slaveRx =>
    exact ensures_ite (fun _ => ensures_next (.emits _ rfl rfl)) fun _ =>
      ensures_orFault fun _ hpush => ensures_next ((pushTo_sameFrame hpush).effect (unchanged_effect _))

theorem endReception_effect (n : Nat) (s : State) : OutputEffect s (endReception n s) := by
  unfold endReception
  split
  · exact .opens _ rfl rfl rfl
  · exact .silent rfl rfl

theorem ctrlStop_effect (s : State) : Ensures (OutputEffect s) (ctrlStop s) := by
  unfold ctrlStop
  cases s.i2c.role with
  | slaveRx =>
    exact ensures_ite (fun _ => ensures_next (endReception_effect _ s)) fun _ =>
      ensures_orFault fun _ hmark => ensures_next ((markHead_sameFrame hmark).effect (endReception_effect _ _))
  | slaveTx | idle | masterTx | masterRx => exact ensures_next (.silent rfl rfl)

theorem execEvICtrl_effect (cause : CtrlCause) (dir : Bool) (s : State) :
    Ensures (OutputEffect s) (execEvICtrl cause dir s) := by
  refine ensures_event (unchanged_effect s) fun _ => ?_
  cases cause with
  | al => exact ensures_next (.silent rfl rfl)
  | nack => exact ensures_ite (fun _ => ensures_next (.silent rfl rfl)) fun _ => ensures_next (.silent rfl rfl)
  | start =>
    refine ensures_ite (fun _ => ensures_ite (fun _ => ?_) fun _ => ensures_next (.silent rfl rfl)) fun _ =>
      ensures_next (.silent rfl rfl)
    exact ensures_ite (fun _ => ensures_next (.opens _ rfl rfl rfl)) fun _ => ensures_next (.emits _ rfl rfl)
  | stop => exact ctrlStop_effect s

/-- Wait resolutions put nothing out and leave `gie` alone (R311). -/
theorem resolveTop_effect (s : State) : Ensures (OutputEffect s) (resolveTop s) := by
  unfold resolveTop
  cases s.sys.ctx.top.wait with
  | none => exact ensures_next (unchanged_effect s)
  | uWrite b =>
    exact ensures_ite (fun _ => ensures_next (unchanged_effect s)) fun _ =>
      ensures_orFault fun _ hq => ensures_next ((queueTx_sameFrame hq).effect (.silent rfl rfl))
  | uFlush | iDone k | iStop k =>
    exact ensures_ite (fun _ => ensures_next (.silent rfl rfl)) fun _ => ensures_next (.silent rfl rfl)
  | iAddr k =>
    exact ensures_ite (fun _ => ensures_next (.silent rfl rfl)) fun _ =>
      ensures_ite (fun _ => ensures_next (.silent rfl rfl)) fun _ =>
        ensures_ite (fun _ => ensures_next (.silent rfl rfl)) fun _ => ensures_next (.silent rfl rfl)
  | sBegin2 set => exact ensures_next (.silent rfl rfl)

/-! ### The writers of `gie` (R21) -/

/-- The instructions that write `gie` other than by opening a window. -/
def WritesGie : Instr → Prop
  | .sysEint => True
  | .sysDint => True
  | .sysIret => True
  | .sBegintrans _ => True
  | .sEndtrans => True
  | _ => False

/-- Every other instruction has one of the three effects. -/
theorem exec_effect {i : Instr} (hi : ¬ WritesGie i) (s : State) : Ensures (OutputEffect s) (exec i s) := by
  have hsame := unchanged_effect s
  cases i
  case sysEint | sysDint | sysIret | sBegintrans | sEndtrans => exact absurd trivial hi
  case uWrite b => exact execUWrite_effect b s
  case uRead | iRead => exact ensures_command hsame fun _ => readFrom_effect _ s
  case uPeek | iPeek => exact ensures_command hsame fun _ => peekAt_effect _ s
  case uFlush =>
    exact ensures_command hsame fun _ =>
      ensures_ite (fun _ => ensures_next (.silent rfl rfl)) fun _ => ensures_next (.silent rfl rfl)
  case iWrite b => exact execIWrite_effect b s
  case iBegin | iEnd | iBegintx =>
    exact ensures_command hsame fun _ =>
      ensures_ite (fun _ => ensures_next (.silent rfl rfl)) fun _ => ensures_next (.silent rfl rfl)
  case iEndtx =>
    exact ensures_command hsame fun _ =>
      ensures_ite (fun _ => ensures_next (.silent rfl rfl)) fun _ => ensures_next (.emits _ rfl rfl)
  case iReqfrom =>
    exact ensures_command hsame fun _ => ensures_ite (fun _ => ensures_next (.silent rfl rfl)) fun _ =>
      ensures_ite (fun _ => ensures_next (.silent rfl rfl)) fun _ => ensures_next (.emits _ rfl rfl)
  case sXfer | sXfer16 | sXfer9 => exact ensures_command hsame fun _ => spiTransfer_effect _ _ _ s
  case sGetcfg => exact execSGetcfg_effect s
  case evXint => exact ensures_event hsame fun _ => ensures_next (.opens _ rfl rfl rfl)
  case evUTxrdy => exact execEvUTxrdy_effect s
  case evURxrdy b => exact execEvURxrdy_effect b s
  case evUBreak =>
    exact ensures_event hsame fun _ =>
      ensures_ite (fun _ => ensures_next (.opens _ rfl rfl rfl)) fun _ => ensures_next hsame
  case evIData b => exact execEvIData_effect b s
  case evICtrl cause dir => exact execEvICtrl_effect cause dir s
  case evIAddrack =>
    exact ensures_event hsame fun _ =>
      ensures_ite (fun _ => ensures_next (.emits _ rfl rfl)) fun _ => ensures_next (.silent rfl rfl)
  case evIStopdone => exact ensures_event hsame fun _ => ensures_next (.silent rfl rfl)
  case evTick => exact ensures_next (.silent rfl rfl)
  case oCb | oUTx | oIStart | oITx | oIStop | oINack | oSXfer => exact ensures_next (.emits _ rfl rfl)
  all_goals exact ensures_command hsame fun _ => ensures_next (.silent rfl rfl)

/-! ### At most one output word (R25, R113) -/

/-- At most one output word, after those already emitted. -/
def EmitsAtMostOne (s t : State) : Prop := t.out.trace = s.out.trace ∨ ∃ w, t.out.trace = s.out.trace ++ [w]

theorem OutputEffect.emitsAtMostOne {s t : State} (h : OutputEffect s t) : EmitsAtMostOne s t := by
  cases h with
  | silent _ htrace => exact .inl htrace
  | emits w _ htrace => exact .inr ⟨w, htrace⟩
  | opens w _ _ htrace => exact .inr ⟨w, htrace⟩

/-- Return from a window puts out the NACK of R229 at most. -/
theorem leaveWindow_emitsAtMostOne {s t : State} (h : leaveWindow s = some t) : EmitsAtMostOne s t := by
  obtain ⟨f, rest, -, rfl | rfl⟩ := leaveWindow_cases h
  · exact .inl rfl
  · exact .inr ⟨_, rfl⟩

@[simp] theorem maskSource_out (s : State) : (maskSource s).out = s.out := by
  unfold maskSource
  split <;> rfl

@[simp] theorem unmaskSource_out (s : State) : (unmaskSource s).out = s.out := by
  unfold unmaskSource
  split <;> rfl

theorem exec_emitsAtMostOne (i : Instr) (s : State) : Ensures (EmitsAtMostOne s) (exec i s) := by
  by_cases hi : WritesGie i
  · have hsame : EmitsAtMostOne s s := .inl rfl
    cases i
    case sysEint | sysDint => exact ensures_command hsame fun _ => ensures_next (.inl rfl)
    case sysIret =>
      refine ensures_command hsame fun _ => ?_
      cases hleave : leaveWindow s with
      | none => exact ensures_next (.inl rfl)
      | some t =>
        have hleft : EmitsAtMostOne s (respond answerZero t) := leaveWindow_emitsAtMostOne (t := t) hleave
        exact ensures_next hleft
    case sBegintrans set =>
      exact ensures_command hsame fun _ => ensures_ite (fun _ => ensures_next (.inl rfl)) fun _ =>
        ensures_next (.inl (by rw [hold_out, setGie_out, maskSource_out]))
    case sEndtrans =>
      exact ensures_command hsame fun _ => ensures_ite (fun _ => ensures_next (.inl rfl)) fun _ =>
        ensures_next (.inl (by rw [respond_out_trace, setGie_out, setCfg_out, unmaskSource_out]))
    all_goals exact hi.elim
  · exact fun t ht => (exec_effect hi s t ht).emitsAtMostOne

/-- Settles O53. -/
theorem atMostOneOutputPerStep : Obligations.AtMostOneOutputPerStep := by
  intro s t hstep hrst
  rcases step_cases hstep with ⟨e, hrst', -⟩ | ⟨e, i, w, m, -, -, hx⟩ | ⟨e, c, w, m, -, -, hx⟩ | ⟨e, i, w, -, -, hx⟩
    | ⟨e, w, -, -, rfl⟩ | ⟨e, -, hx⟩
  · exact absurd hrst' hrst
  · exact exec_emitsAtMostOne i (s.presented e) t hx
  · have hreject : EmitsAtMostOne s (raiseIllegal c (s.presented e)) := .inl rfl
    exact ensures_command (P := EmitsAtMostOne s) (s := s.presented e) (.inl rfl) (fun _ => ensures_next hreject) t hx
  · exact exec_emitsAtMostOne i (s.presented e) t hx
  · exact .inl rfl
  · exact (resolveTop_effect (s.presented e) t hx).emitsAtMostOne

/-! ### What turns interrupts off and on (R21, R331) -/

/-- Interrupts that are enabled stay enabled. -/
def KeepsGieOn (s t : State) : Prop := s.sys.gie = true → t.sys.gie = true

theorem execSysEint_keepsGieOn (s : State) : Ensures (KeepsGieOn s) (execSysEint s) :=
  ensures_command id fun _ => ensures_next fun _ => rfl

theorem execSysIret_keepsGieOn (s : State) : Ensures (KeepsGieOn s) (execSysIret s) := by
  refine ensures_command id fun _ => ?_
  cases hleave : leaveWindow s with
  | none => exact ensures_next (s := raiseIllegal .refused s) id
  | some t =>
    obtain ⟨f, rest, -, rfl | rfl⟩ := leaveWindow_cases hleave
    · exact ensures_next fun _ => rfl
    · exact ensures_next fun _ => rfl

theorem execSEndtrans_keepsGieOn (s : State) : Ensures (KeepsGieOn s) (execSEndtrans s) :=
  ensures_command id fun _ => ensures_ite (fun _ => ensures_next (s := raiseIllegal .refused s) id)
    fun _ => ensures_next fun _ => rfl

/-- `SYS_DINT` turns nothing on. -/
theorem execSysDint_keepsGieOff (s : State) :
    Ensures (fun t => s.sys.gie = false → t.sys.gie = false) (execSysDint s) :=
  ensures_command id fun _ => ensures_next fun _ => rfl

/-- Under mask-all, and only then, a granted lock comes with interrupts off (R262). -/
theorem gieGranted_eq_false {s : State} : gieGranted s = false ↔ s.spi.irqMode = .all := by
  simp [gieGranted]

/-- `S_BEGINTRANS` turns interrupts off only where it grants the lock under mask-all (R262). -/
theorem execSBegintrans_gieOff (set : SpiSettings) (s : State) :
    Ensures (fun t => s.sys.gie = true → t.sys.gie = false → s.spi.irqMode = .all ∧ s.spi.lock = false)
      (execSBegintrans set s) := by
  refine ensures_command (fun hon hoff => ?_) fun _ => ensures_ite (fun _ => ?_) fun hlock => ?_
  · exact absurd (hoff.symm.trans hon) Bool.false_ne_true
  · exact ensures_next fun _ hoff => nomatch hoff
  · exact ensures_next fun _ hoff => ⟨gieGranted_eq_false.1 hoff, Bool.eq_false_iff.2 hlock⟩

/-- Settles O54: the five writers one by one, every other instruction by its effect. -/
theorem writersOfGie : Obligations.WritersOfGie := by
  intro i s t hx
  have hclash : ∀ {b : Bool} {p : Prop}, b = true → b = false → p := fun hon hoff =>
    absurd (hoff.symm.trans hon) Bool.false_ne_true
  by_cases hi : WritesGie i
  · cases i
    case sysEint => exact ⟨fun hon => hclash (execSysEint_keepsGieOn s t hx hon), fun _ _ => .inl rfl⟩
    case sysDint => exact ⟨fun _ _ => .inl rfl, fun hoff hon => hclash hon (execSysDint_keepsGieOff s t hx hoff)⟩
    case sysIret => exact ⟨fun hon => hclash (execSysIret_keepsGieOn s t hx hon), fun _ _ => .inr (.inl rfl)⟩
    case sBegintrans set =>
      exact ⟨fun hon hoff => .inr (.inl ⟨set, rfl, execSBegintrans_gieOff set s t hx hon hoff⟩),
        fun _ _ => .inr (.inr (.inl ⟨set, rfl⟩))⟩
    case sEndtrans => exact ⟨fun hon => hclash (execSEndtrans_keepsGieOn s t hx hon), fun _ _ => .inr (.inr (.inr rfl))⟩
    all_goals exact hi.elim
  · cases exec_effect hi s t hx with
    | silent hgie | emits w hgie =>
      exact ⟨fun hon => hclash (hgie.trans hon), fun hoff hon => hclash hon (hgie.trans hoff)⟩
    | opens w hgie hbelow => exact ⟨fun _ _ => .inr (.inr hbelow), fun _ hon => hclash hon hgie⟩

end

end Sys2Proof.Machine
end

section
/-! The invariant: it holds at reset, and every step keeps it (O56, O57). Each unit's update is one lemma that asks only for
the parts of the invariant that read the fields it writes (R49, R142, R143, R182, R213, R219, R231). -/

namespace Sys2Proof.Machine

/-! ### Rings (R142, R143) -/

theorem Memory.at?_set_isSome {m : Memory} {i j : Nat} {v : Byte} (h : (m.at? j).isSome = true) :
    ((m.set i v).at? j).isSome = true := by
  rw [Memory.at?_set]
  split
  · rfl
  · exact h

theorem Memory.set_inside {n : Nat} {m : Memory} {i : Nat} {v : Byte} (hi : i < n) (h : ∀ c ∈ m, c.1 < n) :
    ∀ c ∈ m.set i v, c.1 < n := by
  intro c hc
  rcases Memory.mem_set m i v c hc with rfl | hold
  · exact hi
  · exact h c hold

/-- A write into the slot `head` names keeps a ring in order. -/
theorem Ring.Ok.mark {n : Nat} {r : Ring} (h : r.Ok n) (v : Byte) :
    Ring.Ok n { r with buf := r.buf.set r.head v } := by
  obtain ⟨hhead, htail, hwf, hin, hwritten⟩ := h
  exact ⟨hhead, htail, Memory.wf_set _ _ _ hwf, Memory.set_inside hhead hin,
    fun k hk => Memory.at?_set_isSome (hwritten k hk)⟩

/-- The one new byte of the contents lies in the slot just written (R136). -/
theorem Ring.Ok.push {n : Nat} {r r' : Ring} {b : Byte} (h : r.Ok n) (hpush : r.push n b = .ok r') :
    r'.Ok n ∧ r'.count n = r.count n + 1 := by
  obtain ⟨hfull, -, rfl⟩ := Ring.push_eq_ok.1 hpush
  obtain ⟨-, -, hwf, hin, hold⟩ := h.mark b
  obtain ⟨hhead, htail, -⟩ := h
  have hcount := Ring.count_of_push (r' := { r with buf := r.buf.set r.head b, head := inc n r.head })
    hhead htail hfull rfl rfl
  refine ⟨⟨inc_lt hhead, htail, hwf, hin, fun k hk => ?_⟩, hcount⟩
  rcases Nat.lt_succ_iff_lt_or_eq.1 (hcount ▸ hk) with hlt | rfl
  · exact hold k hlt
  · change ((r.buf.set r.head b).at? (r.slot n (r.count n))).isSome = true
    rw [Ring.slot_count hhead htail, Memory.at?_set_same]
    rfl

/-- A pop leaves the other bytes of the contents where they are (R137). -/
theorem Ring.Ok.pop {n : Nat} {r r' : Ring} {v : Byte} (h : r.Ok n) (hpop : r.pop n = .ok (v, r')) :
    r'.Ok n ∧ r'.count n + 1 = r.count n := by
  obtain ⟨hempty, -, -, rfl⟩ := Ring.pop_eq_ok.1 hpop
  obtain ⟨hhead, htail, hwf, hin, hwritten⟩ := h
  have hcount := Ring.count_of_pop (r' := { r with tail := inc n r.tail }) hhead htail hempty rfl rfl
  have hlt := Ring.count_lt hhead htail
  refine ⟨⟨hhead, inc_lt htail, hwf, hin, fun k hk => ?_⟩, hcount⟩
  rw [Ring.slot_of_pop (r := r) htail (by omega) rfl]
  exact hwritten (k + 1) (by omega)

/-- A ring with both indices 0 has no contents. -/
theorem Ring.count_clear {n : Nat} (r : Ring) : r.clear.count n = 0 := Nat.mod_self n

theorem Ring.Ok.clear {n : Nat} {r : Ring} (h : r.Ok n) : r.clear.Ok n := by
  obtain ⟨hhead, -, hwf, hin, -⟩ := h
  have hpos : 0 < n := by omega
  refine ⟨hpos, hpos, hwf, hin, fun k hk => ?_⟩
  rw [Ring.count_clear] at hk
  omega

theorem Ring.reset_ok {n : Nat} (h : 0 < n) : Ring.reset.Ok n := by
  refine ⟨h, h, rfl, nofun, fun k hk => ?_⟩
  rw [show Ring.reset.count n = 0 from Nat.mod_self n] at hk
  omega

theorem State.RingsOk.setRing {s : State} (h : s.RingsOk) {sp : Space} {r : Ring} (hr : r.Ok (s.modulus sp)) :
    (s.setRing sp r).RingsOk := by
  obtain ⟨hutx, hurx, hitx, hirx⟩ := h
  cases sp with
  | utx => exact ⟨hr, hurx, hitx, hirx⟩
  | urx => exact ⟨hutx, hr, hitx, hirx⟩
  | itx => exact ⟨hutx, hurx, hr, hirx⟩
  | irx => exact ⟨hutx, hurx, hitx, hr⟩

/-- A push on a space: its ring stays in order and counts one more. -/
theorem pushTo_ring {sp : Space} {b : Byte} {s t : State} (hrings : s.RingsOk) (h : pushTo sp b s = .ok t) :
    ∃ r, r.Ok (s.modulus sp) ∧ r.count (s.modulus sp) = s.countAt sp + 1 ∧ t = s.setRing sp r := by
  unfold pushTo at h
  cases hpush : (s.ring sp).push (s.modulus sp) b with
  | error f => simp [hpush] at h
  | ok r =>
    obtain ⟨hr, hcount⟩ := (hrings.ring sp).push hpush
    exact ⟨r, hr, hcount, by simpa [hpush] using h.symm⟩

/-- A pop on a space: its ring stays in order and counts one less. -/
theorem popFrom_ring {sp : Space} {v : Byte} {s t : State} (hrings : s.RingsOk) (h : popFrom sp s = .ok (v, t)) :
    ∃ r, r.Ok (s.modulus sp) ∧ r.count (s.modulus sp) + 1 = s.countAt sp ∧ t = s.setRing sp r := by
  unfold popFrom at h
  cases hpop : (s.ring sp).pop (s.modulus sp) with
  | error f => simp [hpop] at h
  | ok p =>
    obtain ⟨hr, hcount⟩ := (hrings.ring sp).pop hpop
    obtain ⟨-, rfl⟩ : p.1 = v ∧ s.setRing sp p.2 = t := by simpa [hpop] using h
    exact ⟨p.2, hr, hcount, rfl⟩

/-- With role `IDLE` nothing is asked of the role or of a request. -/
theorem roleOk_of_idle {s : State} (h : s.i2c.role = .idle) : s.RoleOk := by
  simp [State.RoleOk, h]

theorem requestOk_of_idle {s : State} (h : s.i2c.role = .idle) : s.RequestOk := by
  simp [State.RequestOk, h]

/-! ### Reset (R360, R361) -/

/-- The reset state meets the invariant in every block whose parameters R7 and R8 allow. -/
theorem initial_inv {p : Params} (hp : p.wf) : (State.initial p).Inv := by
  have ⟨⟨hutx, _⟩, ⟨hurx, _⟩, ⟨hitx, _⟩, ⟨hirx, _⟩, _⟩ := hp
  have hrings : (State.initial p).RingsOk :=
    ⟨Ring.reset_ok (Nat.zero_lt_of_lt hutx), Ring.reset_ok (Nat.zero_lt_of_lt hurx),
      Ring.reset_ok (Nat.zero_lt_of_lt hitx), Ring.reset_ok (Nat.zero_lt_of_lt hirx)⟩
  have hctx : (State.initial p).CtxOk := ⟨rfl, nofun, fun f hf => by rw [List.mem_singleton.1 hf]; rfl⟩
  have hsources : (State.initial p).SourcesOk := ⟨BitVec.zero_and, nofun, nofun⟩
  have hphase : (State.initial p).PhaseOk := ⟨rfl, fun h => absurd rfl h⟩
  exact ⟨hp, hrings, hctx, hsources, hphase, roleOk_of_idle rfl, requestOk_of_idle rfl, fun _ => rfl⟩

/-- Settles O56, at the parameters R7 and R8 give as defaults. -/
theorem resetMeetsInvariant : Obligations.ResetMeetsInvariant := initial_inv (by decide)

/-! ### The stack of frames (R49 items 3 and 7) -/

/-- The kinds of the frames, top first. -/
def Ctx.kinds (c : Ctx) : List FrameKind := c.top.kind :: c.below.map Frame.kind

theorem Ctx.kinds_ne_nil (c : Ctx) : c.kinds ≠ [] := List.cons_ne_nil _ _

/-- `CtxOk` of a list of kinds: it does not read what the frames wait for. -/
def KindsOk (nsrc : Nat) (ks : List FrameKind) : Prop :=
  ks.getLast? = some .fg ∧ (∀ k ∈ ks.dropLast, k ≠ .fg) ∧ ∀ k ∈ ks, k.fits nsrc = true

theorem ctxOk_iff_kinds {s : State} : s.CtxOk ↔ KindsOk s.params.nsrc s.sys.ctx.kinds := by
  have hkinds : s.sys.ctx.kinds = s.sys.ctx.frames.map Frame.kind := rfl
  simp only [KindsOk, hkinds, List.getLast?_map, ← List.map_dropLast, List.forall_mem_map, State.CtxOk]

/-- A frame above the others is a window of a source that exists. -/
theorem kindsOk_cons {nsrc : Nat} {k : FrameKind} {ks : List FrameKind} (hne : ks ≠ []) :
    KindsOk nsrc (k :: ks) ↔ (k ≠ .fg ∧ k.fits nsrc = true) ∧ KindsOk nsrc ks := by
  simp only [KindsOk, List.getLast?_cons, List.dropLast_cons_of_ne_nil hne, List.forall_mem_cons,
    List.getLast?_eq_some_getLast hne, Option.getD_some]
  tauto

/-- The top frame's part of the frames that wait inside a master operation. -/
theorem masterWaits_eq (s : State) :
    s.masterWaits = s.sys.ctx.top.wait.isMaster.toNat + (s.sys.ctx.below.filter fun f => f.wait.isMaster).length := by
  unfold State.masterWaits Ctx.frames
  cases hm : s.sys.ctx.top.wait.isMaster <;> simp [hm, Nat.add_comm]

theorem masterWaits_setWait (s : State) (w : Wait) :
    (setWait w s).masterWaits + s.sys.ctx.top.wait.isMaster.toNat = s.masterWaits + w.isMaster.toNat := by
  rw [masterWaits_eq, masterWaits_eq, setWait_sys_ctx_top_wait, setWait_sys_ctx_below]
  omega

/-- A master operation waits in the top frame only while its phase is set (R213). -/
theorem State.Inv.phase_of_top {s : State} (h : s.Inv) (hw : s.sys.ctx.top.wait.isMaster = true) :
    s.i2c.phase ≠ .none := by
  obtain ⟨-, -, -, -, ⟨hwaits, -⟩, -⟩ := h
  intro hnone
  rw [if_pos hnone, masterWaits_eq, hw] at hwaits
  simp at hwaits

section
variable {s : State}

/-- A wait may change as long as it stays inside, or outside, a master operation. -/
theorem setWait_inv (h : s.Inv) {w : Wait} (hw : w.isMaster = s.sys.ctx.top.wait.isMaster) :
    (setWait w s).Inv := by
  obtain ⟨hparams, hrings, hctx, hsources, ⟨hwaits, hmaster⟩, hrest⟩ := h
  have hkinds := ctxOk_iff_kinds.1 hctx
  have hsame := masterWaits_setWait s w
  rw [hw, Nat.add_right_cancel_iff] at hsame
  exact ⟨hparams, hrings, ctxOk_iff_kinds.2 hkinds, hsources, ⟨hsame.trans hwaits, hmaster⟩, hrest⟩

/-- The start of a command that waits, outside a master operation. -/
theorem hold_inv (h : s.Inv) (hready : s.cmdReady = true) {w : Wait} (hw : w.isMaster = false) :
    (hold w s).Inv := by
  refine setWait_inv h ?_
  rw [hw, (cmdReady_iff s).1 hready]
  rfl

/-- The frame a window opens waits for nothing (R308). -/
theorem openWindow_inv (h : s.Inv) {k : FrameKind} (hk : k ≠ .fg) (hfits : k.fits s.params.nsrc = true) :
    (openWindow k s).Inv := by
  obtain ⟨hparams, hrings, hctx, hsources, ⟨hwaits, hmaster⟩, hrest⟩ := h
  have hkinds := (kindsOk_cons (Ctx.kinds_ne_nil _)).2 ⟨⟨hk, hfits⟩, ctxOk_iff_kinds.1 hctx⟩
  have hsame : (openWindow k s).masterWaits = s.masterWaits := (masterWaits_eq _).trans (Nat.zero_add _)
  exact ⟨hparams, hrings, ctxOk_iff_kinds.2 hkinds, hsources, ⟨hsame.trans hwaits, hmaster⟩, hrest⟩

/-- Return from a window whose frame waits for nothing (R306). -/
theorem popFrame_inv (h : s.Inv) (hready : s.cmdReady = true) {f : Frame} {rest : List Frame}
    (hbelow : s.sys.ctx.below = f :: rest) : (popFrame f rest s).Inv := by
  obtain ⟨hparams, hrings, hctx, hsources, ⟨hwaits, hmaster⟩, hrest⟩ := h
  have hkinds : s.sys.ctx.kinds = s.sys.ctx.top.kind :: (popFrame f rest s).sys.ctx.kinds := by
    rw [Ctx.kinds, hbelow]
    rfl
  have hall := ctxOk_iff_kinds.1 hctx
  rw [hkinds, kindsOk_cons (Ctx.kinds_ne_nil _)] at hall
  obtain ⟨-, hctx'⟩ := hall
  have hsame : s.masterWaits = (popFrame f rest s).masterWaits := by
    rw [masterWaits_eq, (cmdReady_iff s).1 hready, hbelow]
    exact Nat.zero_add _
  exact ⟨hparams, hrings, ctxOk_iff_kinds.2 hctx', hsources, ⟨hsame.symm.trans hwaits, hmaster⟩, hrest⟩

/-! ### The units: what each part of the invariant reads of them -/

theorem uart_inv (h : s.Inv) {u : Uart} (hutx : u.utx.Ok s.params.nUtx) (hurx : u.urx.Ok s.params.nUrx)
    (htxie : u.txie = false → u.utx.empty = true) : State.Inv { s with uart := u } := by
  obtain ⟨hparams, ⟨-, -, hitx, hirx⟩, hctx, hsources, hphase, hrole, hrequest, -⟩ := h
  exact ⟨hparams, ⟨hutx, hurx, hitx, hirx⟩, hctx, hsources, hphase, hrole, hrequest, htxie⟩

/-- Every enable that is set is of a source that exists (R22). -/
theorem xieStatus_eq_iff {s : State} :
    s.xieStatus = s.sys.xie ↔ ∀ i, s.sys.xie.getLsbD i = true → i < s.params.nsrc := by
  constructor
  · intro h i hi
    rw [← h, getLsbD_xieStatus] at hi
    simpa using (Bool.and_eq_true_iff.1 hi).1
  · intro h
    refine BitVec.eq_of_getLsbD_eq fun i _ => ?_
    rw [getLsbD_xieStatus, Bool.and_eq_right_iff_imp]
    simpa using h i

theorem State.Inv.enabled_source (h : s.Inv) {i : Nat} (hi : s.sys.xie.getLsbD i = true) : i < s.params.nsrc := by
  obtain ⟨-, -, -, ⟨hxie, -⟩, -⟩ := h
  exact xieStatus_eq_iff.1 hxie i hi

/-- An enable turns on for a source that exists only. -/
theorem setXie_inv (h : s.Inv) {src : Source} {val : Bool} (hsrc : val = true → src.toNat < s.params.nsrc) :
    (setXie src val s).Inv := by
  have henabled : ∀ i, (setXie src val s).sys.xie.getLsbD i = true → i < s.params.nsrc := by
    intro i hi
    rw [setXie_sys_xie] at hi
    cases val with
    | false =>
      rw [if_neg Bool.false_ne_true, BitVec.getLsbD_and] at hi
      exact h.enabled_source (Bool.and_eq_true_iff.1 hi).1
    | true =>
      rw [if_pos rfl, BitVec.getLsbD_or, getLsbD_sourceBit] at hi
      rcases Bool.or_eq_true_iff.1 hi with hold | hnew
      · exact h.enabled_source hold
      · obtain ⟨-, rfl⟩ := of_decide_eq_true hnew
        exact hsrc rfl
  obtain ⟨hparams, hrings, hctx, ⟨-, hirq, hmasked⟩, hrest⟩ := h
  exact ⟨hparams, hrings, hctx, ⟨xieStatus_eq_iff.2 henabled, hirq, hmasked⟩, hrest⟩

theorem spi_inv (h : s.Inv) {u : Spi} (hirq : u.irqMode = .one → u.irqSrc.toNat < s.params.nsrc)
    (hmasked : u.masked = true → u.maskedSrc.toNat < s.params.nsrc) : State.Inv { s with spi := u } := by
  obtain ⟨hparams, hrings, hctx, ⟨hxie, -, -⟩, hrest⟩ := h
  exact ⟨hparams, hrings, hctx, ⟨hxie, hirq, hmasked⟩, hrest⟩

/-- Another ring in a space: `utx` stays empty with its interrupt off (R182), and a master reception has counted what lies in
`irx` (R219). -/
theorem setRing_inv (h : s.Inv) {sp : Space} {r : Ring} (hr : r.Ok (s.modulus sp))
    (hutx : sp = .utx → s.uart.txie = false → r.empty = true)
    (hirx : sp = .irx → s.i2c.role = .masterRx → r.count s.params.nIrx ≤ s.i2c.got.toNat) : (s.setRing sp r).Inv := by
  obtain ⟨hparams, hrings, hctx, hsources, hphase, hrole, hrequest, htxie⟩ := h
  have hrings := hrings.setRing hr
  cases sp with
  | utx => exact ⟨hparams, hrings, hctx, hsources, hphase, hrole, hrequest, hutx rfl⟩
  | urx | itx => exact ⟨hparams, hrings, hctx, hsources, hphase, hrole, hrequest, htxie⟩
  | irx =>
    refine ⟨hparams, hrings, hctx, hsources, hphase, hrole, fun hrx => ?_, htxie⟩
    obtain ⟨hgot, hexpect, -⟩ := hrequest hrx
    exact ⟨hgot, hexpect, hirx rfl hrx⟩

/-- The I2C machine with role `IDLE`: outside a master operation the mode is free. -/
theorem idleI2c_inv (h : s.Inv) {j : I2c} (hitx : j.itx.Ok s.params.nItx) (hirx : j.irx.Ok s.params.nIrx)
    (hidle : j.role = .idle) (hphase : j.phase = s.i2c.phase)
    (hkeep : j.phase ≠ .none → j.mode = s.i2c.mode ∧ j.savedMode = s.i2c.savedMode) :
    State.Inv { s with i2c := j } := by
  obtain ⟨hparams, ⟨hutx, hurx, -, -⟩, hctx, hsources, ⟨hwaits, hmaster⟩, -, -, htxie⟩ := h
  have hwaits' : s.masterWaits = if j.phase = .none then 0 else 1 := by rw [hphase, hwaits]
  have hmaster' : j.phase ≠ .none → j.mode = .master ∧ j.savedMode.known = true := by
    intro hne
    obtain ⟨hmode, hsaved⟩ := hkeep hne
    rw [hmode, hsaved]
    exact hmaster (hphase ▸ hne)
  exact ⟨hparams, ⟨hutx, hurx, hitx, hirx⟩, hctx, hsources, ⟨hwaits', hmaster'⟩, roleOk_of_idle hidle,
    requestOk_of_idle hidle, htxie⟩

/-- A slave role, in slave mode: no master operation is in progress then (R225). -/
theorem slaveRole_inv (h : s.Inv) {r : Role} (hmode : s.i2c.mode = .slave) (hr : r = .slaveTx ∨ r = .slaveRx) :
    (setRole r s).Inv := by
  obtain ⟨hparams, hrings, hctx, hsources, ⟨hwaits, hmaster⟩, -, -, htxie⟩ := h
  have hphase : s.i2c.phase = .none := by
    by_contra hne
    obtain ⟨hmode', -⟩ := hmaster hne
    rw [hmode] at hmode'
    cases hmode'
  have hrole : (setRole r s).RoleOk := by
    refine ⟨?_, fun _ => ⟨hphase, hmode⟩⟩
    rcases hr with rfl | rfl <;> exact nofun
  have hrequest : (setRole r s).RequestOk := by
    rcases hr with rfl | rfl <;> exact nofun
  exact ⟨hparams, hrings, hctx, hsources, ⟨hwaits, hmaster⟩, hrole, hrequest, htxie⟩

/-! ### Master operations (R205, R206, R213, R216, R219, R226) -/

/-- The start of a master operation, by a command, outside another one: its frame is the one that waits. -/
theorem startMaster_inv (h : s.Inv) (hready : s.cmdReady = true) (hidle : s.i2c.phase = .none) (k : MasterOp)
    {role : Role} (rw : Bool) (hrole : role = .masterTx ∨ role = .masterRx)
    (hrequest : role = .masterRx → s.i2c.got.toNat < s.i2c.expect.toNat
      ∧ s.i2c.expect.toNat ≤ s.params.nIrx - 1 ∧ s.countAt .irx ≤ s.i2c.got.toNat) : (startMaster k role rw s).Inv := by
  obtain ⟨hparams, hrings, hctx, hsources, ⟨hwaits, -⟩, -, -, htxie⟩ := h
  have hkinds := ctxOk_iff_kinds.1 hctx
  have hone : (setWait (.iAddr k) s).masterWaits = 1 := by
    have hstart := masterWaits_setWait s (.iAddr k)
    rw [(cmdReady_iff s).1 hready, hwaits, if_pos hidle] at hstart
    exact hstart
  have hroles : (startMaster k role rw s).RoleOk := by
    refine ⟨fun _ => nofun, ?_⟩
    rcases hrole with rfl | rfl <;> exact nofun
  exact ⟨hparams, hrings, ctxOk_iff_kinds.2 hkinds, hsources, ⟨hone, fun _ => ⟨rfl, rfl⟩⟩, hroles, hrequest, htxie⟩

/-- The end of a master operation: its frame waits no more, and the mode is free again. -/
theorem endMaster_inv (h : s.Inv) (hw : s.sys.ctx.top.wait.isMaster = true) (m : I2cMode) :
    State.Inv (setWait .none { s with i2c.mode := m, i2c.phase := .none, i2c.role := .idle }) := by
  have hbusy := h.phase_of_top hw
  obtain ⟨hparams, hrings, hctx, hsources, ⟨hwaits, -⟩, -, -, htxie⟩ := h
  have hkinds := ctxOk_iff_kinds.1 hctx
  have hnone : (setWait .none s).masterWaits = 0 := by
    have hend := masterWaits_setWait s .none
    rw [hw, hwaits, if_neg hbusy] at hend
    exact Nat.add_right_cancel hend
  exact ⟨hparams, hrings, ctxOk_iff_kinds.2 hkinds, hsources, ⟨hnone, fun hne => absurd rfl hne⟩,
    roleOk_of_idle rfl, requestOk_of_idle rfl, htxie⟩

/-- The acknowledged address (R226): the operation goes on. -/
theorem addressAcked_inv (h : s.Inv) (hack : s.i2c.phase = .addr) :
    State.Inv { s with i2c.phase := .data } := by
  obtain ⟨hparams, hrings, hctx, hsources, ⟨hwaits, hmaster⟩, ⟨-, hslave⟩, hrequest, htxie⟩ := h
  rw [hack, if_neg nofun] at hwaits
  have hslave' : s.i2c.role = .slaveTx ∨ s.i2c.role = .slaveRx → Phase.data = .none ∧ s.i2c.mode = .slave := by
    intro hs
    rw [hack] at hslave
    obtain ⟨hnone, -⟩ := hslave hs
    cases hnone
  have hmaster' := hmaster (by rw [hack]; nofun)
  exact ⟨hparams, hrings, hctx, hsources, ⟨hwaits, fun _ => hmaster'⟩, ⟨fun _ => nofun, hslave'⟩, hrequest, htxie⟩

/-! ### Ring primitives under the invariant -/

theorem clearRing_inv (h : s.Inv) (sp : Space) : (clearRing sp s).Inv := by
  have ⟨_, hrings, _⟩ := h
  refine setRing_inv h (hrings.ring sp).clear (fun _ _ => rfl) fun _ _ => ?_
  rw [Ring.count_clear]
  exact Nat.zero_le _

/-- A pop keeps the invariant; from `utx` it is asked for with the transmit interrupt on (R178, R182). -/
theorem popFrom_inv (h : s.Inv) {sp : Space} {v : Byte} {t : State} (hpop : popFrom sp s = .ok (v, t))
    (hutx : sp = .utx → s.uart.txie = true) : t.Inv := by
  have ⟨_, hrings, _, _, _, _, hrequest, _⟩ := h
  obtain ⟨r, hr, hcount, rfl⟩ := popFrom_ring hrings hpop
  refine setRing_inv h hr (fun hsp htxie => ?_) fun hsp hrx => ?_
  · rw [hutx hsp] at htxie
    cases htxie
  · subst hsp
    obtain ⟨-, -, hcounted⟩ := hrequest hrx
    exact Nat.le_of_succ_le (hcount.le.trans hcounted)

/-- A push keeps the invariant where it is not a push to `utx`, or to `irx` by a master reception. -/
theorem pushTo_inv (h : s.Inv) {sp : Space} {b : Byte} {t : State} (hpush : pushTo sp b s = .ok t) (hutx : sp ≠ .utx)
    (hirx : sp = .irx → s.i2c.role ≠ .masterRx) : t.Inv := by
  have ⟨_, hrings, _⟩ := h
  obtain ⟨r, hr, -, rfl⟩ := pushTo_ring hrings hpush
  exact setRing_inv h hr (fun hsp => absurd hsp hutx) fun hsp hrx => absurd hrx (hirx hsp)

/-- The byte queued for transmission comes with the transmit interrupt on (R163, R175, R182). -/
theorem queueTx_inv (h : s.Inv) {b : Byte} {t : State} (hq : queueTx b s = .ok t) : t.Inv := by
  have ⟨_, hrings, _⟩ := h
  have ⟨_, hurx, _⟩ := hrings
  unfold queueTx at hq
  cases hpush : pushTo .utx b s with
  | error f => simp [hpush] at hq
  | ok u =>
    obtain ⟨r, hr, -, rfl⟩ := pushTo_ring hrings hpush
    obtain rfl : _ = t := by simpa [hpush] using hq
    exact uart_inv h hr hurx nofun

/-- The terminator is written by a slave reception (R228). -/
theorem markHead_irx_inv (h : s.Inv) {v : Byte} {t : State} (hmark : markHead .irx v s = .ok t)
    (hrole : s.i2c.role ≠ .masterRx) : t.Inv := by
  obtain ⟨-, rfl⟩ := markHead_eq_ok.1 hmark
  have ⟨_, hrings, _⟩ := h
  exact setRing_inv h ((hrings.ring .irx).mark v) nofun fun _ hrx => absurd hrx hrole

/-- The role back to `IDLE`. -/
theorem setRole_idle_inv (h : s.Inv) : (setRole .idle s).Inv := by
  have ⟨_, ⟨_, _, hitx, hirx⟩, _⟩ := h
  exact idleI2c_inv h hitx hirx rfl rfl fun _ => ⟨rfl, rfl⟩

/-- A master reception never finds `irx` full: what lies there it has counted, and it expects no more than fit (R219). -/
theorem State.Inv.irx_not_full (h : s.Inv) (hrole : s.i2c.role = .masterRx) : s.fullAt .irx = false := by
  obtain ⟨-, hrings, -, -, -, -, hrequest, -⟩ := h
  obtain ⟨hhead, htail, -⟩ := hrings.ring .irx
  obtain ⟨hgot, hexpect, hcount⟩ := hrequest hrole
  refine (Ring.full_eq_false_iff hhead htail).2 fun hfull => ?_
  change s.countAt .irx = s.params.nIrx - 1 at hfull
  omega

/-- Counting a byte that is still expected does not wrap. -/
theorem toNat_add_one_of_lt {a b : Byte} (h : a.toNat < b.toNat) : (a + 1#8).toNat = a.toNat + 1 := by
  bv_omega

/-- A byte received by a master reception: it is counted as it is stored, and the reception ends at the expected count
(R219). -/
theorem countRx_inv (h : s.Inv) (hrole : s.i2c.role = .masterRx) {b : Byte} {t : State}
    (hpush : pushTo .irx b s = .ok t) : (countRx t).Inv := by
  have ⟨hparams, hrings, hctx, hsources, hphase, hroles, hrequest, htxie⟩ := h
  have ⟨hutx, hurx, hitx, _⟩ := hrings
  obtain ⟨r, hirx, hcount, rfl⟩ := pushTo_ring hrings hpush
  obtain ⟨hgot, hexpect, hcounted⟩ := hrequest hrole
  dsimp only [countRx]
  split
  · exact idleI2c_inv h (j := { s.i2c with irx := r, got := _, role := .idle }) hitx hirx rfl rfl fun _ => ⟨rfl, rfl⟩
  · rename_i hlast
    change s.i2c.got + 1#8 ≠ s.i2c.expect at hlast
    have hgot' := toNat_add_one_of_lt hgot
    have hrequest' : State.RequestOk { s with i2c.irx := r, i2c.got := s.i2c.got + 1#8 } := by
      intro _
      refine ⟨by bv_omega, hexpect, ?_⟩
      change r.count s.params.nIrx ≤ (s.i2c.got + 1#8).toNat
      rw [hgot']
      exact hcount.le.trans (Nat.succ_le_succ hcounted)
    have hgoing : State.Inv { s with i2c.irx := r, i2c.got := s.i2c.got + 1#8 } :=
      ⟨hparams, ⟨hutx, hurx, hitx, hirx⟩, hctx, hsources, hphase, hroles, hrequest', htxie⟩
    split
    · exact hgoing
    · exact hgoing

/-! ### The updates that write no field the invariant reads -/

theorem respond_inv (h : s.Inv) (v : Word) : (respond v s).Inv := h

theorem refuse_inv (h : s.Inv) : Ensures State.Inv (refuse s) := ensures_next (s := raiseIllegal .refused s) h

theorem emit_inv (h : s.Inv) (e : Instr) : (emit e s).Inv := h

theorem setGie_inv (h : s.Inv) (b : Bool) : (setGie b s).Inv := h

theorem setErr_inv (h : s.Inv) (e : I2cErr) : (setErr e s).Inv := h

theorem issueStop_inv (h : s.Inv) : (issueStop s).Inv := h

theorem setCfg_inv (h : s.Inv) (c : SpiReg) : (setCfg c s).Inv := h

/-- Entry to interrupt context (R329). -/
theorem enterWindow_inv (h : s.Inv) (cb : CbKind) (info : Byte) {k : FrameKind} (hk : k ≠ .fg)
    (hfits : k.fits s.params.nsrc = true) : (enterWindow cb info k s).Inv :=
  openWindow_inv (emit_inv h _) hk hfits

/-! ### System unit -/

theorem execSysXie_inv (h : s.Inv) {src : Source} (hsrc : src.toNat < s.params.nsrc) (val : Bool) :
    Ensures State.Inv (execSysXie src val s) :=
  ensures_command h fun _ => ensures_next (respond_inv (setXie_inv h fun _ => hsrc) _)

theorem execSysIret_inv (h : s.Inv) : Ensures State.Inv (execSysIret s) := by
  refine ensures_command h fun hready => ?_
  cases hleave : leaveWindow s with
  | none => exact refuse_inv h
  | some t =>
    obtain ⟨f, rest, hbelow, ht⟩ := leaveWindow_cases hleave
    have hpop := popFrame_inv h hready hbelow
    rcases ht with rfl | rfl
    · exact ensures_next (respond_inv hpop _)
    · exact ensures_next (respond_inv (emit_inv hpop _) _)

/-- An enabled source exists, so its window may open (R310). -/
theorem execEvXint_inv (h : s.Inv) (src : Source) : Ensures State.Inv (execEvXint src s) := by
  refine ensures_event h fun hd => ?_
  obtain ⟨-, hsrc⟩ := Bool.and_eq_true_iff.1 hd
  exact ensures_next (enterWindow_inv h _ _ nofun (decide_eq_true (h.enabled_source hsrc)))

/-! ### UART -/

theorem readFrom_inv (h : s.Inv) {sp : Space} (hsp : sp ≠ .utx) : Ensures State.Inv (readFrom sp s) :=
  ensures_ite (fun _ => ensures_next (respond_inv h _)) fun _ => ensures_orFault fun _ hpop =>
    ensures_next (respond_inv (popFrom_inv h hpop fun hutx => absurd hutx hsp) _)

theorem peekAt_inv (h : s.Inv) (sp : Space) : Ensures State.Inv (peekAt sp s) :=
  ensures_ite (fun _ => ensures_next (respond_inv h _)) fun _ => ensures_orFault fun _ _ =>
    ensures_next (respond_inv h _)

theorem execUWrite_inv (h : s.Inv) (b : Byte) : Ensures State.Inv (execUWrite b s) :=
  ensures_command h fun hready => ensures_ite
    (fun _ => ensures_orFault fun _ hq => ensures_next (respond_inv (queueTx_inv h hq) _))
    fun _ => ensures_ite (fun _ => ensures_next (respond_inv h _)) fun _ => ensures_next (hold_inv h hready rfl)

theorem execUFlush_inv (h : s.Inv) : Ensures State.Inv (execUFlush s) :=
  ensures_command h fun hready => ensures_ite (fun _ => ensures_next (respond_inv h _))
    fun _ => ensures_next (hold_inv h hready rfl)

/-- The transmit interrupt goes off only when `utx` is found empty (R178, R182). -/
theorem execEvUTxrdy_inv (h : s.Inv) : Ensures State.Inv (execEvUTxrdy s) := by
  have ⟨_, ⟨hutx, hurx, _⟩, _⟩ := h
  refine ensures_event h fun hd => ensures_ite (fun hempty => ?_) fun _ => ensures_orFault fun p hpop => ?_
  · exact ensures_next (uart_inv h hutx hurx fun _ => hempty)
  · obtain ⟨⟨-, htxie⟩, -⟩ : (s.sys.gie = true ∧ s.uart.txie = true) ∧ s.uart.held = false := by
      simpa [State.txReady] using hd
    have hpopped := popFrom_inv h hpop fun _ => htxie
    exact ensures_next (s := transmit p.1 p.2) hpopped

theorem execEvURxrdy_inv (h : s.Inv) (b : Byte) : Ensures State.Inv (execEvURxrdy b s) :=
  ensures_event h fun _ => ensures_ite (fun _ => ensures_next h) fun _ => ensures_orFault fun _ hpush =>
    ensures_next (pushTo_inv h hpush nofun nofun)

theorem execEvUBreak_inv (h : s.Inv) : Ensures State.Inv (execEvUBreak s) :=
  ensures_event h fun _ => ensures_ite (fun _ => ensures_next (enterWindow_inv h _ _ nofun rfl)) fun _ => ensures_next h

/-! ### I2C -/

theorem phase_none_of_not_busy (hbusy : ¬ s.i2cBusy = true) : s.i2c.phase = .none := by
  simpa [State.i2cBusy] using hbusy

theorem newTarget_inv (h : s.Inv) (ten : Bool) (addr : I2cAddr) : (newTarget ten addr s).Inv := by
  have ⟨_, ⟨_, _, hitx, hirx⟩, _⟩ := h
  exact idleI2c_inv h hitx hirx rfl rfl fun _ => ⟨rfl, rfl⟩

theorem execIBegin_inv (h : s.Inv) (slave ten : Bool) (addr : I2cAddr) :
    Ensures State.Inv (execIBegin slave ten addr s) := by
  have ⟨_, ⟨_, _, hitx, hirx⟩, _⟩ := h
  refine ensures_command h fun _ => ensures_ite (fun _ => refuse_inv h) fun hbusy => ensures_next (respond_inv ?_ _)
  exact idleI2c_inv h hitx.clear hirx.clear rfl rfl fun hne => absurd (phase_none_of_not_busy hbusy) hne

theorem execIEnd_inv (h : s.Inv) : Ensures State.Inv (execIEnd s) := by
  have ⟨_, ⟨_, _, hitx, hirx⟩, _⟩ := h
  refine ensures_command h fun _ => ensures_ite (fun _ => refuse_inv h) fun _ => ensures_next (respond_inv ?_ _)
  exact idleI2c_inv h hitx.clear hirx.clear rfl rfl fun _ => ⟨rfl, rfl⟩

theorem execIBegintx_inv (h : s.Inv) (ten : Bool) (addr : I2cAddr) : Ensures State.Inv (execIBegintx ten addr s) :=
  ensures_command h fun _ => ensures_ite (fun _ => refuse_inv h) fun _ =>
    ensures_next (respond_inv (clearRing_inv (newTarget_inv h ten addr) .itx) _)

theorem execIWrite_inv (h : s.Inv) (b : Byte) : Ensures State.Inv (execIWrite b s) :=
  ensures_command h fun _ => ensures_ite (fun _ => ensures_next (respond_inv h _)) fun _ => ensures_orFault fun _ hpush =>
    ensures_next (respond_inv (pushTo_inv h hpush nofun nofun) _)

/-- A master command that is not refused finds no master operation in progress. -/
theorem phase_none_of_not_refused (hbusy : ¬ (!s.i2c.en || s.i2cBusy) = true) : s.i2c.phase = .none :=
  phase_none_of_not_busy fun hb => hbusy (by rw [hb, Bool.or_true])

theorem execIEndtx_inv (h : s.Inv) : Ensures State.Inv (execIEndtx s) :=
  ensures_command h fun hready => ensures_ite (fun _ => refuse_inv h) fun hbusy =>
    ensures_next (startMaster_inv h hready (phase_none_of_not_refused hbusy) _ _ (.inl rfl) nofun)

/-- A request expects no more bytes than fit (R206). -/
theorem requestLength_le (s : State) (count : Byte) : (s.requestLength count).toNat ≤ s.params.nIrx - 1 := by
  rw [State.requestLength, countByte, BitVec.toNat_ofNat]
  exact (Nat.mod_le _ _).trans (Nat.min_le_right _ _)

theorem execIReqfrom_inv (h : s.Inv) (count : Byte) (ten : Bool) (addr : I2cAddr) :
    Ensures State.Inv (execIReqfrom count ten addr s) := by
  have ⟨_, ⟨_, _, hitx, hirx⟩, _⟩ := h
  have hnew : State.Inv { clearRing .irx (newTarget ten addr s) with
      i2c := { (clearRing .irx (newTarget ten addr s)).i2c with expect := s.requestLength count, got := 0#8 } } :=
    idleI2c_inv h hitx hirx.clear rfl rfl fun _ => ⟨rfl, rfl⟩
  refine ensures_command h fun hready => ensures_ite (fun _ => refuse_inv h) fun hbusy =>
    ensures_ite (fun _ => ensures_next (respond_inv hnew _)) fun hsome => ensures_next ?_
  have hidle := phase_none_of_not_refused hbusy
  refine startMaster_inv hnew hready hidle _ _ (.inr rfl) fun _ => ⟨?_, requestLength_le s count, ?_⟩
  · exact Nat.pos_of_ne_zero fun hzero => hsome (BitVec.eq_of_toNat_eq hzero)
  · exact (Ring.count_clear s.i2c.irx).le

/-- The data-ready event, role by role (R217 to R221). -/
theorem execEvIData_inv (h : s.Inv) (b : Byte) : Ensures State.Inv (execEvIData b s) := by
  refine ensures_event h fun _ => ?_
  cases hrole : s.i2c.role with
  | idle => exact ensures_next h
  | masterTx =>
    exact ensures_ite (fun _ => ensures_next (setRole_idle_inv (issueStop_inv h))) fun _ =>
      ensures_orFault fun _ hpop => ensures_next (emit_inv (popFrom_inv h hpop nofun) _)
  | masterRx =>
    refine ensures_ite (fun hfull => ?_) fun _ => ensures_orFault fun _ hpush => ensures_next (countRx_inv h hrole hpush)
    rw [h.irx_not_full hrole] at hfull
    cases hfull
  | slaveTx =>
    exact ensures_ite (fun _ => ensures_next (emit_inv h _)) fun _ =>
      ensures_orFault fun _ hpop => ensures_next (emit_inv (popFrom_inv h hpop nofun) _)
  | slaveRx =>
    exact ensures_ite (fun _ => ensures_next (emit_inv h _)) fun _ =>
      ensures_orFault fun _ hpush => ensures_next (pushTo_inv h hpush nofun fun _ => by rw [hrole]; nofun)

/-- START detected: only in slave mode does it write anything (R225). -/
theorem ctrlStart_inv (h : s.Inv) (dir : Bool) : Ensures State.Inv (ctrlStart dir s) := by
  refine ensures_ite (fun hmode => ensures_ite (fun _ => ?_) fun _ => ?_) fun _ => ensures_next h
  · have hslave := clearRing_inv (slaveRole_inv h hmode (.inl rfl)) .itx
    exact ensures_ite (fun _ => ensures_next (enterWindow_inv hslave _ _ nofun rfl)) fun _ =>
      ensures_next (emit_inv hslave _)
  · exact ensures_next (clearRing_inv (slaveRole_inv h hmode (.inr rfl)) .irx)

theorem endReception_inv (h : s.Inv) (n : Nat) : (endReception n s).Inv := by
  unfold endReception
  split
  · exact enterWindow_inv (setRole_idle_inv h) _ _ nofun rfl
  · exact setRole_idle_inv h

theorem ctrlStop_inv (h : s.Inv) : Ensures State.Inv (ctrlStop s) := by
  unfold ctrlStop
  cases hrole : s.i2c.role with
  | slaveRx =>
    refine ensures_ite (fun _ => ensures_next (endReception_inv h _)) fun _ => ensures_orFault fun _ hmark => ?_
    exact ensures_next (endReception_inv (markHead_irx_inv h hmark (by rw [hrole]; nofun)) _)
  | slaveTx => exact ensures_next (setRole_idle_inv h)
  | idle | masterTx | masterRx => exact ensures_next h

theorem execEvICtrl_inv (h : s.Inv) (cause : CtrlCause) (dir : Bool) : Ensures State.Inv (execEvICtrl cause dir s) := by
  refine ensures_event h fun _ => ?_
  cases cause with
  | al => exact ensures_next (setErr_inv (setRole_idle_inv h) _)
  | nack => exact ensures_ite (fun _ => ensures_next h) fun _ => ensures_next (setRole_idle_inv (setErr_inv h _))
  | start => exact ctrlStart_inv h dir
  | stop => exact ctrlStop_inv h

theorem execEvIAddrack_inv (h : s.Inv) : Ensures State.Inv (execEvIAddrack s) := by
  refine ensures_event h fun hack => ?_
  have hdata := addressAcked_inv h (beq_iff_eq.1 hack)
  exact ensures_ite (fun _ => ensures_next (issueStop_inv hdata)) fun _ => ensures_next hdata

/-! ### SPI -/

theorem maskSource_inv (h : s.Inv) : (maskSource s).Inv := by
  have ⟨_, _, _, ⟨_, hirq, _⟩, _⟩ := h
  unfold maskSource
  split
  · rename_i hone
    exact spi_inv (setXie_inv (val := false) h nofun) hirq fun _ => hirq hone
  · exact h
  · exact h

@[simp] theorem maskSource_sys_ctx (s : State) : (maskSource s).sys.ctx = s.sys.ctx := by
  unfold maskSource
  split <;> rfl

theorem unmaskSource_inv (h : s.Inv) : (unmaskSource s).Inv := by
  have ⟨_, _, _, ⟨_, hirq, hmasked⟩, _⟩ := h
  unfold unmaskSource
  split
  · exact spi_inv (setXie_inv h fun _ => hmasked ‹_›) hirq nofun
  · exact h

theorem execSBegintrans_inv (h : s.Inv) (set : SpiSettings) : Ensures State.Inv (execSBegintrans set s) := by
  refine ensures_command h fun hready => ensures_ite (fun _ => ensures_next (respond_inv (setGie_inv h _) _)) fun _ => ?_
  have hmask : (maskSource { s with spi := { s.spi with lock := true } }).Inv := maskSource_inv (s := { s with spi := _ }) h
  refine ensures_next (hold_inv (setGie_inv hmask _) ?_ rfl)
  rw [cmdReady_iff] at hready ⊢
  rw [setGie_sys_ctx, maskSource_sys_ctx]
  exact hready

theorem execSEndtrans_inv (h : s.Inv) : Ensures State.Inv (execSEndtrans s) := by
  have hunmask : (unmaskSource { s with spi := { s.spi with lock := false } }).Inv :=
    unmaskSource_inv (s := { s with spi := _ }) h
  exact ensures_command h fun _ => ensures_ite (fun _ => refuse_inv h) fun _ =>
    ensures_next (respond_inv (setGie_inv (setCfg_inv hunmask _) _) _)

theorem execSUsingint_inv (h : s.Inv) {m : IrqMode} {src : Source} (hfits : irqFits s.params.nsrc m src = true) :
    Ensures State.Inv (execSUsingint m src s) := by
  have ⟨_, _, _, ⟨_, _, hmasked⟩, _⟩ := h
  refine ensures_command h fun _ => ensures_next (respond_inv ?_ _)
  refine spi_inv h (fun hone => ?_) hmasked
  subst hone
  exact of_decide_eq_true hfits

theorem spiTransfer_inv (h : s.Inv) (len : XferLen) (v : BitVec 16) (r : Word) :
    Ensures State.Inv (spiTransfer len v r s) := by
  refine ensures_ite (fun _ => refuse_inv h) fun _ => ?_
  split
  · exact ensures_next (respond_inv (emit_inv h _) _)
  · exact ensures_fault _

theorem execSGetcfg_inv (h : s.Inv) : Ensures State.Inv (execSGetcfg s) := by
  refine ensures_command h fun _ => ?_
  split
  · exact ensures_next (respond_inv h _)
  · exact ensures_fault _

/-! ### Wait resolutions (R175, R176, R214 to R216, R263) -/

theorem resolveUWrite_inv (h : s.Inv) {b : Byte} (hw : s.sys.ctx.top.wait = .uWrite b) :
    Ensures State.Inv (resolveUWrite b s) := by
  refine ensures_ite (fun _ => ensures_next h) fun _ => ensures_orFault fun t hq => ?_
  refine ensures_next (respond_inv (setWait_inv (queueTx_inv h hq) ?_) _)
  rw [(queueTx_sameFrame hq).sys, hw]
  rfl

theorem resolveIAddr_inv (h : s.Inv) {k : MasterOp} (hw : s.sys.ctx.top.wait = .iAddr k) :
    Ensures State.Inv (resolveIAddr k s) := by
  have hmaster : ∀ w : Wait, w.isMaster = true → w.isMaster = s.sys.ctx.top.wait.isMaster := by
    intro w hmaster
    rw [hmaster, hw]
    rfl
  refine ensures_ite (fun _ => ensures_next (setWait_inv h (hmaster _ rfl))) fun _ =>
    ensures_ite (fun _ => ensures_next (setWait_inv h (hmaster _ rfl))) fun _ =>
      ensures_ite (fun _ => ensures_next ?_) fun _ => ensures_next h
  exact setWait_inv (setRole_idle_inv (setErr_inv h _)) (hmaster _ rfl)

theorem resolveIDone_inv (h : s.Inv) {k : MasterOp} (hw : s.sys.ctx.top.wait = .iDone k) :
    Ensures State.Inv (resolveIDone k s) :=
  ensures_ite (fun _ => ensures_next (setWait_inv h (by rw [hw]; rfl))) fun _ => ensures_next h

theorem resolveIStop_inv (h : s.Inv) {k : MasterOp} (hw : s.sys.ctx.top.wait = .iStop k) :
    Ensures State.Inv (resolveIStop k s) :=
  ensures_ite (fun _ => ensures_next h) fun _ => ensures_next (respond_inv (endMaster_inv h (by rw [hw]; rfl) _) _)

/-- Every wait resolution keeps the invariant (R311). -/
theorem resolveTop_inv (h : s.Inv) : Ensures State.Inv (resolveTop s) := by
  unfold resolveTop
  cases hw : s.sys.ctx.top.wait with
  | none => exact ensures_next h
  | uWrite b => exact resolveUWrite_inv h hw
  | uFlush =>
    exact ensures_ite (fun _ => ensures_next (respond_inv (setWait_inv h (by rw [hw]; rfl)) _)) fun _ => ensures_next h
  | iAddr k => exact resolveIAddr_inv h hw
  | iDone k => exact resolveIDone_inv h hw
  | iStop k => exact resolveIStop_inv h hw
  | sBegin2 set =>
    have hset : (setWait .none s).Inv := setWait_inv h (by rw [hw]; rfl)
    exact ensures_next hset

/-! ### Every instruction and every step -/

/-- A well-formed instruction keeps the invariant. The last case is the instructions whose meaning writes no field the
invariant reads. -/
theorem exec_inv (h : s.Inv) {i : Instr} (hwf : wellFormed s.params.nsrc i = true) : Ensures State.Inv (exec i s) := by
  cases i
  case sysXie src val => exact execSysXie_inv h (of_decide_eq_true hwf) val
  case sysIret => exact execSysIret_inv h
  case uBegin | uEnd =>
    have ⟨_, ⟨hutx, hurx, _⟩, _⟩ := h
    exact ensures_command h fun _ => ensures_next (respond_inv (uart_inv h hutx.clear hurx.clear fun _ => rfl) _)
  case uWrite b => exact execUWrite_inv h b
  case uRead | iRead => exact ensures_command h fun _ => readFrom_inv h nofun
  case uPeek | iPeek => exact ensures_command h fun _ => peekAt_inv h _
  case uFlush => exact execUFlush_inv h
  case iBegin slave ten addr => exact execIBegin_inv h slave ten addr
  case iEnd => exact execIEnd_inv h
  case iBegintx ten addr => exact execIBegintx_inv h ten addr
  case iWrite b => exact execIWrite_inv h b
  case iEndtx => exact execIEndtx_inv h
  case iReqfrom count ten addr => exact execIReqfrom_inv h count ten addr
  case sBegintrans set => exact execSBegintrans_inv h set
  case sEndtrans => exact execSEndtrans_inv h
  case sXfer | sXfer16 | sXfer9 => exact ensures_command h fun _ => spiTransfer_inv h _ _ _
  case sUsingint m src => exact execSUsingint_inv h hwf
  case sGetcfg => exact execSGetcfg_inv h
  case evXint src => exact execEvXint_inv h src
  case evUTxrdy => exact execEvUTxrdy_inv h
  case evURxrdy b => exact execEvURxrdy_inv h b
  case evUBreak => exact execEvUBreak_inv h
  case evIData b => exact execEvIData_inv h b
  case evICtrl cause dir => exact execEvICtrl_inv h cause dir
  case evIAddrack => exact execEvIAddrack_inv h
  case evIStopdone => exact ensures_event h fun _ => ensures_next h
  case evTick | oCb | oUTx | oIStart | oITx | oIStop | oINack | oSXfer => exact ensures_next h
  all_goals exact ensures_command h fun _ => ensures_next h

end

/-- Settles O57: reset sets the invariant up, an instruction the decoder lets through keeps it, and so does a wait
resolution; every other presentation writes no field it reads. -/
theorem stepKeepsInvariant : Obligations.StepKeepsInvariant := by
  intro s t h hstep
  have ⟨hparams, _⟩ := h
  rcases step_cases hstep with ⟨e, -, rfl⟩ | ⟨e, i, w, m, -, hd, hx⟩ | ⟨e, c, w, m, -, -, hx⟩ | ⟨e, i, w, -, hd, hx⟩
    | ⟨e, w, -, -, rfl⟩ | ⟨e, -, hx⟩
  · exact initial_inv hparams
  · exact exec_inv (s := s.presented e) h (wellFormed_of_decodeCmd hd) t hx
  · exact ensures_command (s := s.presented e) h (fun _ => ensures_next (s := raiseIllegal c (s.presented e)) h) t hx
  · exact exec_inv (s := s.presented e) h (wellFormed_of_decodeEvt hd) t hx
  · exact h
  · exact resolveTop_inv (s := s.presented e) h t hx

end Sys2Proof.Machine
end

section
/-! A ring is a FIFO queue, the statement O12 (R80, R143, R148): what one push and one pop do to the contents, then
sequences of them. -/

namespace Sys2Proof.Machine

section
variable {n : Nat} {r r' : Ring}

theorem Ring.length_contents (n : Nat) (r : Ring) : (r.contents n).length = r.count n := by
  rw [Ring.contents, List.length_map, List.length_range]

/-! ### One push and one pop (R136, R137) -/

/-- A push appends to the contents: the bytes already there lie in other slots than the one `head` names. -/
theorem Ring.Ok.contents_push {b : Byte} (h : r.Ok n) (hpush : r.push n b = .ok r') :
    r'.contents n = r.contents n ++ [some b] := by
  obtain ⟨-, hcount⟩ := h.push hpush
  obtain ⟨-, -, rfl⟩ := Ring.push_eq_ok.1 hpush
  obtain ⟨hhead, htail, -⟩ := h
  have hnew : (r.buf.set r.head b).at? (r.slot n (r.count n)) = some b := by
    rw [Ring.slot_count hhead htail, Memory.at?_set_same]
  have hold : ∀ k ∈ List.range (r.count n), (r.buf.set r.head b).at? (r.slot n k) = r.buf.at? (r.slot n k) :=
    fun k hk => Memory.at?_set_other _ _ (Ring.slot_ne_head hhead htail (List.mem_range.1 hk))
  rw [Ring.contents, hcount, List.range_succ, List.map_append, Ring.contents, ← List.map_congr_left hold, ← hnew]
  rfl

/-- A pop takes the first byte of the contents: the `k`-th byte left is the one that was the `k + 1`-th. -/
theorem Ring.Ok.contents_pop {v : Byte} (h : r.Ok n) (hpop : r.pop n = .ok (v, r')) :
    r.contents n = some v :: r'.contents n := by
  obtain ⟨-, hcount⟩ := h.pop hpop
  obtain ⟨-, -, hv, rfl⟩ := Ring.pop_eq_ok.1 hpop
  obtain ⟨hhead, htail, -⟩ := h
  have hlt := Ring.count_lt hhead htail
  have hfirst : r.buf.at? (r.slot n 0) = some v := by rw [Ring.slot, Nat.add_zero, Nat.mod_eq_of_lt htail, hv]
  rw [Ring.contents, ← hcount, List.range_succ_eq_map, List.map_cons, List.map_map, hfirst, Ring.contents]
  refine congrArg (some v :: ·) (List.map_congr_left fun k hk => ?_)
  rw [List.mem_range] at hk
  rw [Ring.slot_of_pop (r := r) htail (by omega) rfl]
  rfl

/-- Below the capacity a push answers (R136, R144). -/
theorem Ring.Ok.push_answers (h : r.Ok n) (hroom : r.count n < n - 1) (b : Byte) : ∃ r', r.push n b = .ok r' := by
  obtain ⟨hhead, htail, -⟩ := h
  exact ⟨_, Ring.push_eq_ok.2 ⟨(Ring.full_eq_false_iff hhead htail).2 (Nat.ne_of_lt hroom), hhead, rfl⟩⟩

/-- A ring that is not empty answers a pop (R137, R143). -/
theorem Ring.Ok.pop_answers (h : r.Ok n) (he : r.empty = false) : ∃ v r', r.pop n = .ok (v, r') := by
  obtain ⟨v, hv⟩ := h.tail_written he
  obtain ⟨-, htail, -⟩ := h
  exact ⟨v, _, Ring.pop_eq_ok.2 ⟨he, htail, hv, rfl⟩⟩

/-- A ring is empty exactly when it has no contents. -/
theorem Ring.Ok.empty_iff_contents (h : r.Ok n) : r.empty = true ↔ r.contents n = [] := by
  obtain ⟨hhead, htail, -⟩ := h
  rw [Ring.empty_iff hhead htail, ← Ring.length_contents, List.length_eq_zero_iff]

end

/-! ### Sequences (R143, R148) -/

/-- Bytes that fit are all accepted, and stand after those already there in the order they entered. -/
theorem Ring.Ok.pushAll_contents {n : Nat} {r : Ring} (h : r.Ok n) (new : List Byte)
    (hroom : r.count n + new.length ≤ n - 1) :
    ∃ r', Ring.pushAll n r new = .ok r' ∧ r'.Ok n ∧ r'.contents n = r.contents n ++ new.map some := by
  induction new generalizing r with
  | nil => exact ⟨r, rfl, h, (List.append_nil _).symm⟩
  | cons b bs ih =>
    rw [List.length_cons] at hroom
    obtain ⟨r₁, hpush⟩ := h.push_answers (by omega) b
    obtain ⟨hok, hcount⟩ := h.push hpush
    obtain ⟨r', hall, hok', hcontents⟩ := ih hok (by omega)
    refine ⟨r', by rw [Ring.pushAll, hpush, ← hall], hok', ?_⟩
    rw [hcontents, h.contents_push hpush, List.append_assoc]
    rfl

/-- As many pops as there are bytes return the contents, oldest first, and leave the ring empty. -/
theorem Ring.Ok.popAll_contents {n : Nat} {r : Ring} (h : r.Ok n) {bs : List Byte} (hbs : r.contents n = bs.map some) :
    ∃ r', Ring.popAll n r bs.length = .ok (bs, r') ∧ r'.empty = true ∧ r'.Ok n := by
  induction bs generalizing r with
  | nil => exact ⟨r, rfl, h.empty_iff_contents.2 hbs, h⟩
  | cons b bs ih =>
    have he : r.empty = false := by
      rw [← Bool.not_eq_true, h.empty_iff_contents, hbs]
      exact List.cons_ne_nil _ _
    obtain ⟨v, r₁, hpop⟩ := h.pop_answers he
    obtain ⟨rfl, hrest⟩ : v = b ∧ r₁.contents n = bs.map some := by
      simpa [h.contents_pop hpop] using hbs
    obtain ⟨r', hall, hempty, hok⟩ := ih (h.pop hpop).1 hrest
    exact ⟨r', by rw [List.length_cons, Ring.popAll, hpop]; simp only [hall], hempty, hok⟩

/-- Settles O12: the pushes append the new bytes to the contents, and the pops return the contents. -/
theorem ringFifo : Obligations.RingFifo := by
  intro n r old new h hold hroom
  have hcount : r.count n = old.length := by rw [← Ring.length_contents, hold, List.length_map]
  obtain ⟨r', hpush, hok, hcontents⟩ := h.pushAll_contents new (hcount ▸ hroom)
  have hboth : r'.contents n = (old ++ new).map some := by rw [hcontents, hold, List.map_append]
  obtain ⟨r'', hpop, hempty, hok'⟩ := hok.popAll_contents hboth
  exact ⟨r', r'', hpush, List.length_append ▸ hpop, hempty, hok'⟩

end Sys2Proof.Machine
end

section
/-! One side writes each ring index, the statement O55 (R79, R152): an instruction that clears no ring moves an index
only through `push` or `pop`, and each space has one instruction that pushes and one that pops. -/

namespace Sys2Proof.Machine

/-! ### The sides of R152 -/

/-- The instruction that is the producer of a space: it writes `head`. -/
def Produces (i : Instr) : Space → Prop
  | .utx => ∃ b, i = .uWrite b
  | .urx => ∃ b, i = .evURxrdy b
  | .itx => ∃ b, i = .iWrite b
  | .irx => ∃ b, i = .evIData b

/-- The instruction that is the consumer of a space: it writes `tail`. -/
def Consumes (i : Instr) : Space → Prop
  | .utx => i = .evUTxrdy
  | .urx => i = .uRead
  | .itx => ∃ b, i = .evIData b
  | .irx => i = .iRead

/-- The instructions that clear a ring (R152). -/
inductive ClearsRing : Instr → Prop where
  | uBegin (rate : BitVec 24) : ClearsRing (.uBegin rate)
  | uEnd : ClearsRing .uEnd
  | iBegin (slave ten : Bool) (addr : I2cAddr) : ClearsRing (.iBegin slave ten addr)
  | iEnd : ClearsRing .iEnd
  | iBegintx (ten : Bool) (addr : I2cAddr) : ClearsRing (.iBegintx ten addr)
  | iReqfrom (count : Byte) (ten : Bool) (addr : I2cAddr) : ClearsRing (.iReqfrom count ten addr)
  | evStart (dir : Bool) : ClearsRing (.evICtrl .start dir)

/-- From `s` to `t`, whatever index `i` moved it moved as the side of that index. -/
def MovesOwnIndices (i : Instr) (s t : State) : Prop :=
  ∀ sp, ((t.ring sp).head ≠ (s.ring sp).head → Produces i sp) ∧ ((t.ring sp).tail ≠ (s.ring sp).tail → Consumes i sp)

/-- The four rings. -/
def State.rings (s : State) : Ring × Ring × Ring × Ring := (s.uart.utx, s.uart.urx, s.i2c.itx, s.i2c.irx)

/-- The four rings are as before. -/
def KeepsRings (s t : State) : Prop := t.rings = s.rings

theorem KeepsRings.ring {s t : State} (h : KeepsRings s t) (sp : Space) : t.ring sp = s.ring sp := by
  obtain ⟨hutx, hurx, hitx, hirx⟩ : t.uart.utx = s.uart.utx ∧ t.uart.urx = s.uart.urx ∧ t.i2c.itx = s.i2c.itx
      ∧ t.i2c.irx = s.i2c.irx := by simpa [KeepsRings, State.rings] using h
  cases sp <;> assumption

/-! ### What each ring primitive moves -/

section
variable {i : Instr} {s t u : State} {sp : Space} {b v : Byte}

theorem KeepsRings.movesOwnIndices (h : KeepsRings s t) : MovesOwnIndices i s t := by
  intro sp
  rw [h.ring sp]
  exact ⟨fun hne => absurd rfl hne, fun hne => absurd rfl hne⟩

/-- Nothing that leaves the rings alone adds to what was moved before. -/
theorem MovesOwnIndices.trans_keepsRings (h : MovesOwnIndices i s t) (hk : KeepsRings t u) : MovesOwnIndices i s u := by
  intro sp
  rw [hk.ring sp]
  exact h sp

/-- A new ring in one space moves at most the indices of that space. -/
theorem setRing_movesOwnIndices {r : Ring} (hhead : r.head ≠ (s.ring sp).head → Produces i sp)
    (htail : r.tail ≠ (s.ring sp).tail → Consumes i sp) : MovesOwnIndices i s (s.setRing sp r) := by
  intro sp'
  by_cases hsp : sp' = sp
  · subst hsp
    rw [ring_setRing]
    exact ⟨hhead, htail⟩
  · rw [ring_setRing_other _ _ _ _ hsp]
    exact ⟨fun hne => absurd rfl hne, fun hne => absurd rfl hne⟩

/-- A push moves `head` only (R136). -/
theorem pushTo_movesOwnIndices (hi : Produces i sp) (h : pushTo sp b s = .ok t) : MovesOwnIndices i s t := by
  obtain ⟨-, -, rfl⟩ := pushTo_eq_ok.1 h
  exact setRing_movesOwnIndices (fun _ => hi) fun hne => absurd rfl hne

/-- A pop moves `tail` only (R137). -/
theorem popFrom_movesOwnIndices (hi : Consumes i sp) (h : popFrom sp s = .ok (v, t)) : MovesOwnIndices i s t := by
  obtain ⟨-, -, -, rfl⟩ := popFrom_eq_ok.1 h
  exact setRing_movesOwnIndices (fun hne => absurd rfl hne) fun _ => hi

/-- The terminator write moves no index (R228). -/
theorem markHead_movesOwnIndices (h : markHead sp v s = .ok t) : MovesOwnIndices i s t := by
  obtain ⟨-, rfl⟩ := markHead_eq_ok.1 h
  exact setRing_movesOwnIndices (fun hne => absurd rfl hne) fun hne => absurd rfl hne

theorem queueTx_movesOwnIndices (hi : Produces i .utx) (h : queueTx b s = .ok t) : MovesOwnIndices i s t := by
  obtain ⟨hfull, hhead, rfl⟩ := queueTx_eq_ok.1 h
  exact (pushTo_movesOwnIndices hi (pushTo_eq_ok.2 ⟨hfull, hhead, rfl⟩)).trans_keepsRings rfl

/-! ### Updates that leave the rings alone -/

theorem countRx_keepsRings (s : State) : KeepsRings s (countRx s) := by
  dsimp only [countRx]
  split
  · rfl
  · split <;> rfl

theorem endReception_keepsRings (n : Nat) (s : State) : KeepsRings s (endReception n s) := by
  unfold endReception
  split <;> rfl

theorem maskSource_keepsRings (s : State) : KeepsRings s (maskSource s) := by
  unfold maskSource
  split <;> rfl

theorem unmaskSource_keepsRings (s : State) : KeepsRings s (unmaskSource s) := by
  unfold unmaskSource
  split <;> rfl

theorem leaveWindow_keepsRings (h : leaveWindow s = some t) : KeepsRings s t := by
  obtain ⟨f, rest, -, rfl | rfl⟩ := leaveWindow_cases h <;> rfl

end

/-! ### The meanings -/

section
variable {i : Instr} {s : State}

/-- A next state whose rings are as before. -/
theorem ensures_keepsRings {t : State} (h : KeepsRings s t) : Ensures (MovesOwnIndices i s) (.next t) :=
  ensures_next h.movesOwnIndices

theorem unchanged_movesOwnIndices (i : Instr) (s : State) : MovesOwnIndices i s s :=
  KeepsRings.movesOwnIndices rfl

theorem readFrom_movesOwnIndices {sp : Space} (hi : Consumes i sp) : Ensures (MovesOwnIndices i s) (readFrom sp s) :=
  ensures_ite (fun _ => ensures_keepsRings rfl) fun _ => ensures_orFault fun _ hpop =>
    ensures_next ((popFrom_movesOwnIndices hi hpop).trans_keepsRings rfl)

theorem peekAt_movesOwnIndices (sp : Space) : Ensures (MovesOwnIndices i s) (peekAt sp s) :=
  ensures_ite (fun _ => ensures_keepsRings rfl) fun _ =>
    ensures_orFault fun _ _ => ensures_keepsRings rfl

theorem execSysIret_movesOwnIndices : Ensures (MovesOwnIndices i s) (execSysIret s) := by
  refine ensures_command (unchanged_movesOwnIndices i s) fun _ => ?_
  cases hleave : leaveWindow s with
  | none => exact ensures_keepsRings rfl
  | some t => exact ensures_next ((leaveWindow_keepsRings hleave).movesOwnIndices.trans_keepsRings rfl)

theorem execUWrite_movesOwnIndices (b : Byte) : Ensures (MovesOwnIndices (.uWrite b) s) (execUWrite b s) :=
  ensures_command (unchanged_movesOwnIndices _ s) fun _ => ensures_ite
    (fun _ => ensures_orFault fun _ hq => ensures_next ((queueTx_movesOwnIndices ⟨b, rfl⟩ hq).trans_keepsRings rfl))
    fun _ => ensures_ite (fun _ => ensures_keepsRings rfl) fun _ => ensures_keepsRings rfl

theorem execIWrite_movesOwnIndices (b : Byte) : Ensures (MovesOwnIndices (.iWrite b) s) (execIWrite b s) :=
  ensures_command (unchanged_movesOwnIndices _ s) fun _ =>
    ensures_ite (fun _ => ensures_keepsRings rfl) fun _ => ensures_orFault fun _ hpush =>
      ensures_next ((pushTo_movesOwnIndices (sp := .itx) ⟨b, rfl⟩ hpush).trans_keepsRings rfl)

theorem execSBegintrans_movesOwnIndices (set : SpiSettings) : Ensures (MovesOwnIndices i s) (execSBegintrans set s) :=
  ensures_command (unchanged_movesOwnIndices i s) fun _ =>
    ensures_ite (fun _ => ensures_keepsRings rfl) fun _ =>
      ensures_keepsRings (maskSource_keepsRings { s with spi := { s.spi with lock := true } })

theorem execSEndtrans_movesOwnIndices : Ensures (MovesOwnIndices i s) (execSEndtrans s) :=
  ensures_command (unchanged_movesOwnIndices i s) fun _ =>
    ensures_ite (fun _ => ensures_keepsRings rfl) fun _ =>
      ensures_keepsRings (unmaskSource_keepsRings { s with spi := { s.spi with lock := false } })

theorem spiTransfer_movesOwnIndices (len : XferLen) (v : BitVec 16) (r : Word) :
    Ensures (MovesOwnIndices i s) (spiTransfer len v r s) := by
  refine ensures_ite (fun _ => ensures_keepsRings rfl) fun _ => ?_
  split
  · exact ensures_keepsRings rfl
  · exact ensures_fault _

theorem execSGetcfg_movesOwnIndices : Ensures (MovesOwnIndices i s) (execSGetcfg s) := by
  refine ensures_command (unchanged_movesOwnIndices i s) fun _ => ?_
  split
  · exact ensures_keepsRings rfl
  · exact ensures_fault _

theorem execEvUTxrdy_movesOwnIndices : Ensures (MovesOwnIndices .evUTxrdy s) (execEvUTxrdy s) :=
  ensures_event (unchanged_movesOwnIndices _ s) fun _ =>
    ensures_ite (fun _ => ensures_keepsRings rfl) fun _ => ensures_orFault fun _ hpop =>
      ensures_next ((popFrom_movesOwnIndices (sp := .utx) rfl hpop).trans_keepsRings rfl)

theorem execEvURxrdy_movesOwnIndices (b : Byte) : Ensures (MovesOwnIndices (.evURxrdy b) s) (execEvURxrdy b s) :=
  ensures_event (unchanged_movesOwnIndices _ s) fun _ =>
    ensures_ite (fun _ => ensures_next (unchanged_movesOwnIndices _ s)) fun _ => ensures_orFault fun _ hpush =>
      ensures_next (pushTo_movesOwnIndices (sp := .urx) ⟨b, rfl⟩ hpush)

/-- The data-ready event is the consumer of `itx` in the transmitting roles and the producer of `irx` in the receiving
ones (R217 to R221). -/
theorem execEvIData_movesOwnIndices (b : Byte) : Ensures (MovesOwnIndices (.evIData b) s) (execEvIData b s) := by
  refine ensures_event (unchanged_movesOwnIndices _ s) fun _ => ?_
  cases s.i2c.role with
  | idle => exact ensures_next (unchanged_movesOwnIndices _ s)
  | masterTx | slaveTx =>
    exact ensures_ite (fun _ => ensures_keepsRings rfl) fun _ => ensures_orFault fun _ hpop =>
      ensures_next ((popFrom_movesOwnIndices (sp := .itx) ⟨b, rfl⟩ hpop).trans_keepsRings rfl)
  | masterRx =>
    exact ensures_ite (fun _ => ensures_keepsRings (countRx_keepsRings s)) fun _ => ensures_orFault fun _ hpush =>
      ensures_next ((pushTo_movesOwnIndices (sp := .irx) ⟨b, rfl⟩ hpush).trans_keepsRings (countRx_keepsRings _))
  | slaveRx =>
    exact ensures_ite (fun _ => ensures_keepsRings rfl) fun _ => ensures_orFault fun _ hpush =>
      ensures_next (pushTo_movesOwnIndices (sp := .irx) ⟨b, rfl⟩ hpush)

/-- STOP detected: the terminator lies past the contents and is not counted (R228). -/
theorem ctrlStop_movesOwnIndices : Ensures (MovesOwnIndices i s) (ctrlStop s) := by
  unfold ctrlStop
  cases s.i2c.role with
  | slaveRx =>
    exact ensures_ite (fun _ => ensures_keepsRings (endReception_keepsRings _ s)) fun _ => ensures_orFault fun _ hmark =>
      ensures_next ((markHead_movesOwnIndices hmark).trans_keepsRings (endReception_keepsRings _ _))
  | slaveTx | idle | masterTx | masterRx => exact ensures_keepsRings rfl

/-- Every cause but START, which clears a ring (R225). -/
theorem execEvICtrl_movesOwnIndices {cause : CtrlCause} (hstart : cause ≠ .start) (dir : Bool) :
    Ensures (MovesOwnIndices i s) (execEvICtrl cause dir s) := by
  refine ensures_event (unchanged_movesOwnIndices i s) fun _ => ?_
  cases cause with
  | al => exact ensures_keepsRings rfl
  | nack =>
    exact ensures_ite (fun _ => ensures_keepsRings rfl) fun _ => ensures_keepsRings rfl
  | start => exact absurd rfl hstart
  | stop => exact ctrlStop_movesOwnIndices

end

/-! ### Every instruction -/

theorem exec_movesOwnIndices {i : Instr} (hi : ¬ ClearsRing i) (s : State) :
    Ensures (MovesOwnIndices i s) (exec i s) := by
  have hsame := unchanged_movesOwnIndices i s
  cases i
  case uBegin rate => exact absurd (.uBegin rate) hi
  case uEnd => exact absurd .uEnd hi
  case iBegin slave ten addr => exact absurd (.iBegin slave ten addr) hi
  case iEnd => exact absurd .iEnd hi
  case iBegintx ten addr => exact absurd (.iBegintx ten addr) hi
  case iReqfrom count ten addr => exact absurd (.iReqfrom count ten addr) hi
  case evICtrl cause dir => exact execEvICtrl_movesOwnIndices (by rintro rfl; exact hi (.evStart dir)) dir
  case uWrite b => exact execUWrite_movesOwnIndices b
  case iWrite b => exact execIWrite_movesOwnIndices b
  case uRead | iRead => exact ensures_command hsame fun _ => readFrom_movesOwnIndices rfl
  case uPeek | iPeek => exact ensures_command hsame fun _ => peekAt_movesOwnIndices _
  case evUTxrdy => exact execEvUTxrdy_movesOwnIndices
  case evURxrdy b => exact execEvURxrdy_movesOwnIndices b
  case evIData b => exact execEvIData_movesOwnIndices b
  case sysIret => exact execSysIret_movesOwnIndices
  case sBegintrans set => exact execSBegintrans_movesOwnIndices set
  case sEndtrans => exact execSEndtrans_movesOwnIndices
  case sXfer | sXfer16 | sXfer9 => exact ensures_command hsame fun _ => spiTransfer_movesOwnIndices _ _ _
  case sGetcfg => exact execSGetcfg_movesOwnIndices
  case uFlush | iEndtx =>
    exact ensures_command hsame fun _ => ensures_ite (fun _ => ensures_keepsRings rfl) fun _ => ensures_keepsRings rfl
  case evUBreak | evIAddrack =>
    exact ensures_event hsame fun _ => ensures_ite (fun _ => ensures_keepsRings rfl) fun _ => ensures_keepsRings rfl
  case evXint | evIStopdone => exact ensures_event hsame fun _ => ensures_keepsRings rfl
  case evTick | oCb | oUTx | oIStart | oITx | oIStop | oINack | oSXfer => exact ensures_keepsRings rfl
  all_goals exact ensures_command hsame fun _ => ensures_keepsRings rfl

/-- Settles O55: space by space, from what every instruction that clears no ring moves. -/
theorem singleWriterPerIndex : Obligations.SingleWriterPerIndex := by
  intro i s t hx huBegin huEnd hiBegin hiEnd hiBegintx hiReqfrom hstart
  have hi : ¬ ClearsRing i := by
    rintro (rate | _ | ⟨slave, ten, addr⟩ | _ | ⟨ten, addr⟩ | ⟨count, ten, addr⟩ | dir)
    · exact huBegin rate rfl
    · exact huEnd rfl
    · exact hiBegin slave ten addr rfl
    · exact hiEnd rfl
    · exact hiBegintx ten addr rfl
    · exact hiReqfrom count ten addr rfl
    · exact hstart dir rfl
  have hmoves := exec_movesOwnIndices hi s t hx
  have ⟨hutxHead, hutxTail⟩ := hmoves .utx
  have ⟨hurxHead, hurxTail⟩ := hmoves .urx
  have ⟨hitxHead, hitxTail⟩ := hmoves .itx
  have ⟨hirxHead, hirxTail⟩ := hmoves .irx
  exact ⟨hutxHead, hutxTail, hurxHead, hurxTail, hitxHead, hitxTail, hirxHead, hirxTail⟩

end Sys2Proof.Machine
end

section
/-! The decoder and the encoder are inverse: O1, O2 (R101, R103, R109, R111, R112). Each operand format is read back from what
the encoder writes, and what it reads is written as it was; so a word decodes to exactly the well-formed instruction it is the
word of. -/

namespace Sys2Proof

/-! ### Written operands, field by field -/

/-- A field is a concatenation exactly when its two parts are the parts of the concatenation. -/
theorem extract_eq_append {n a b lo : Nat} {z : BitVec n} {x : BitVec a} {y : BitVec b} :
    z.extractLsb' lo (a + b) = x ++ y ↔ z.extractLsb' (lo + b) a = x ∧ z.extractLsb' lo b = y := by
  have hz : z.extractLsb' lo (a + b) = z.extractLsb' (lo + b) a ++ z.extractLsb' lo b := by
    ext i hi
    rw [BitVec.getElem_append]
    split
    · simp
    · simp [show lo + b + (i - b) = lo + i by omega]
  rw [hz]
  refine ⟨fun h => ?_, fun ⟨hx, hy⟩ => hx ▸ hy ▸ rfl⟩
  exact ⟨by simpa [extract_high, extract_all] using congrArg (·.extractLsb' b a) h,
    by simpa [extract_low, extract_all] using congrArg (·.extractLsb' 0 b) h⟩

/-- The same for a whole word. -/
theorem eq_append_iff {n m : Nat} {z : BitVec (n + m)} {x : BitVec n} {y : BitVec m} :
    z = x ++ y ↔ z.extractLsb' m n = x ∧ z.extractLsb' 0 m = y := by
  have h := extract_eq_append (lo := 0) (z := z) (x := x) (y := y)
  rwa [extract_all, Nat.zero_add] at h

/-- A bit is a written flag exactly when it reads as the flag. -/
theorem eq_bit_iff {b : Bool} {x : BitVec 1} : x = bit b ↔ (x == 1#1) = b := by
  revert x
  cases b <;> decide

section
variable {a : Arg}

theorem eq_argB_iff {b : Byte} : a = argB b ↔ field a 8 16 = 0#16 ∧ field a 0 8 = b :=
  eq_append_iff (n := 16) (m := 8)

theorem eq_argH_iff {h : BitVec 16} : a = argH h ↔ field a 16 8 = 0#8 ∧ field a 0 16 = h :=
  eq_append_iff (n := 8) (m := 16)

theorem eq_argW9_iff {n : BitVec 9} : a = argW9 n ↔ field a 9 15 = 0#15 ∧ field a 0 9 = n :=
  eq_append_iff (n := 15) (m := 9)

theorem eq_argF1_iff {f : Bool} : a = argF1 f ↔ field a 1 23 = 0#23 ∧ flagAt a 0 = f :=
  (eq_append_iff (n := 23)).trans (and_congr_right' eq_bit_iff)

theorem eq_argF2_iff {v : BitVec 2} : a = argF2 v ↔ field a 2 22 = 0#22 ∧ field a 0 2 = v :=
  eq_append_iff (n := 22) (m := 2)

theorem eq_argA_iff {ten : Bool} {addr : I2cAddr} : a = argA ten addr ↔
    field a 11 13 = 0#13 ∧ flagAt a 10 = ten ∧ field a 0 10 = addr := by
  refine (eq_append_iff (n := 13) (m := 1 + 10)).trans ?_
  simp only [extract_eq_append, eq_bit_iff]

theorem eq_argAS_iff {slave ten : Bool} {addr : I2cAddr} : a = argAS slave ten addr ↔
    field a 12 12 = 0#12 ∧ flagAt a 11 = slave ∧ flagAt a 10 = ten ∧ field a 0 10 = addr := by
  refine (eq_append_iff (n := 12) (m := 1 + (1 + 10))).trans ?_
  simp only [extract_eq_append, eq_bit_iff]

theorem eq_argAQ_iff {count : Byte} {ten : Bool} {addr : I2cAddr} : a = argAQ count ten addr ↔
    field a 16 8 = count ∧ field a 11 5 = 0#5 ∧ flagAt a 10 = ten ∧ field a 0 10 = addr := by
  refine (eq_append_iff (n := 8) (m := 5 + (1 + 10))).trans ?_
  simp only [extract_eq_append, eq_bit_iff]

theorem eq_argS_iff {s : SpiSettings} : a = argS s ↔
    field a 19 5 = 0#5 ∧ field a 17 2 = s.mode ∧ flagAt a 16 = s.order ∧ field a 0 16 = s.rate := by
  refine (eq_append_iff (n := 5) (m := 2 + (1 + 16))).trans ?_
  simp only [extract_eq_append, eq_bit_iff]

theorem eq_argI_iff {m : IrqMode} {src : Source} : a = argI m src ↔
    field a 10 14 = 0#14 ∧ field a 8 2 = m.code ∧ field a 0 8 = src := by
  refine (eq_append_iff (n := 14) (m := 2 + 8)).trans ?_
  simp only [extract_eq_append]

theorem eq_argX_iff {src : Source} {val : Bool} : a = argX src val ↔
    field a 9 15 = 0#15 ∧ flagAt a 8 = val ∧ field a 0 8 = src := by
  refine (eq_append_iff (n := 15) (m := 1 + 8)).trans ?_
  simp only [extract_eq_append, eq_bit_iff]

theorem eq_argC_iff {cause : CtrlCause} {dir : Bool} : a = argC cause dir ↔
    field a 5 19 = 0#19 ∧ flagAt a 4 = dir ∧ field a 0 4 = cause.code := by
  refine (eq_append_iff (n := 19) (m := 1 + 4)).trans ?_
  simp only [extract_eq_append, eq_bit_iff]

theorem eq_argCb_iff {kind : CbKind} {info : Byte} : a = argCb kind info ↔
    field a 16 8 = 0#8 ∧ field a 8 8 = info ∧ field a 2 6 = 0#6 ∧ field a 0 2 = kind.code := by
  refine (eq_append_iff (n := 8) (m := 8 + (6 + 2))).trans ?_
  simp only [extract_eq_append]

theorem eq_argXfer_iff {len : XferLen} {mode : BitVec 2} {order : Bool} {value : BitVec 16} :
    a = argXfer len mode order value ↔ field a 21 3 = 0#3 ∧ field a 19 2 = len.code
      ∧ field a 17 2 = mode ∧ flagAt a 16 = order ∧ field a 0 16 = value := by
  refine (eq_append_iff (n := 3) (m := 2 + (2 + (1 + 16)))).trans ?_
  simp only [extract_eq_append, eq_bit_iff]

end

/-! ### Coded operands -/

theorem parityOf_eq_some {b : BitVec 2} {p : Parity} : parityOf b = some p ↔ b = p.code := by
  revert b
  cases p <;> decide

theorem irqModeOf_eq_some {b : BitVec 2} {m : IrqMode} : irqModeOf b = some m ↔ b = m.code := by
  revert b
  cases m <;> decide

theorem causeOf_eq_some {b : BitVec 4} {c : CtrlCause} : causeOf b = some c ↔ b = c.code := by
  revert b
  cases c <;> decide

theorem cbKindOf_eq_iff {b : BitVec 2} {k : CbKind} : cbKindOf b = k ↔ b = k.code := by
  revert b
  cases k <;> decide

theorem xferLenOf_eq_some {b : BitVec 2} {l : XferLen} : xferLenOf b = some l ↔ b = l.code := by
  revert b
  cases l <;> decide

/-! ### Formats: what each reads is what was written (R103) -/

theorem reservedZero_eq_ok {ok : Bool} {j i : Instr} : reservedZero ok j = .ok i ↔ ok = true ∧ j = i := by
  cases ok <;> simp [reservedZero]

theorem named_eq_ok {α : Type} {reserved : Prop} [Decidable reserved] {o : Option α} {k : α → Instr} {i : Instr} :
    (if reserved then named (o.map k) else .error .operand) = .ok i ↔ reserved ∧ ∃ x, o = some x ∧ k x = i := by
  by_cases reserved <;> cases o <;> simp [named, *]

section
variable {a : Arg} {i : Instr}

theorem fmtN_eq_ok {j : Instr} : fmtN a j = .ok i ↔ a = 0#24 ∧ j = i := by
  simp only [fmtN, reservedZero_eq_ok, beq_iff_eq]

theorem fmtB_eq_ok {k : Byte → Instr} :
    fmtB a k = .ok i ↔ ∃ b, a = argB b ∧ k b = i := by
  simp only [fmtB, reservedZero_eq_ok, beq_iff_eq, eq_argB_iff, and_assoc, exists_and_left,
    exists_eq_left']

theorem fmtH_eq_ok {k : BitVec 16 → Instr} :
    fmtH a k = .ok i ↔ ∃ h, a = argH h ∧ k h = i := by
  simp only [fmtH, reservedZero_eq_ok, beq_iff_eq, eq_argH_iff, and_assoc, exists_and_left,
    exists_eq_left']

theorem fmtW9_eq_ok {k : BitVec 9 → Instr} :
    fmtW9 a k = .ok i ↔ ∃ n, a = argW9 n ∧ k n = i := by
  simp only [fmtW9, reservedZero_eq_ok, beq_iff_eq, eq_argW9_iff, and_assoc, exists_and_left,
    exists_eq_left']

theorem fmtF1_eq_ok {k : Bool → Instr} :
    fmtF1 a k = .ok i ↔ ∃ f, a = argF1 f ∧ k f = i := by
  simp only [fmtF1, reservedZero_eq_ok, beq_iff_eq, eq_argF1_iff, and_assoc, exists_and_left,
    exists_eq_left']

theorem fmtF2_eq_ok {k : BitVec 2 → Instr} :
    fmtF2 a k = .ok i ↔ ∃ v, a = argF2 v ∧ k v = i := by
  simp only [fmtF2, reservedZero_eq_ok, beq_iff_eq, eq_argF2_iff, and_assoc, exists_and_left,
    exists_eq_left']

theorem fmtParity_eq_ok {k : Parity → Instr} :
    fmtParity a k = .ok i ↔ ∃ p, a = argF2 p.code ∧ k p = i := by
  simp only [fmtParity, named_eq_ok, beq_iff_eq, eq_argF2_iff, parityOf_eq_some, and_assoc, exists_and_left]

theorem fmtA_eq_ok {k : Bool → I2cAddr → Instr} :
    fmtA a k = .ok i ↔ ∃ ten addr, a = argA ten addr ∧ k ten addr = i := by
  simp only [fmtA, reservedZero_eq_ok, beq_iff_eq, eq_argA_iff, and_assoc, exists_and_left,
    exists_eq_left']

theorem fmtAS_eq_ok {k : Bool → Bool → I2cAddr → Instr} :
    fmtAS a k = .ok i ↔ ∃ slave ten addr, a = argAS slave ten addr ∧ k slave ten addr = i := by
  simp only [fmtAS, reservedZero_eq_ok, beq_iff_eq, eq_argAS_iff, and_assoc, exists_and_left,
    exists_eq_left']

theorem fmtAQ_eq_ok {k : Byte → Bool → I2cAddr → Instr} :
    fmtAQ a k = .ok i ↔ ∃ count ten addr, a = argAQ count ten addr ∧ k count ten addr = i := by
  simp only [fmtAQ, reservedZero_eq_ok, beq_iff_eq, eq_argAQ_iff, and_assoc, exists_and_left,
    exists_eq_left']

theorem fmtS_eq_ok {k : SpiSettings → Instr} : fmtS a k = .ok i ↔ ∃ s, a = argS s ∧ k s = i := by
  simp only [fmtS, reservedZero_eq_ok, beq_iff_eq, eq_argS_iff, and_assoc, exists_and_left]
  refine and_congr_right' ⟨fun h => ⟨_, rfl, rfl, rfl, h⟩, ?_⟩
  rintro ⟨⟨rate, order, mode⟩, hmode, horder, hrate, h⟩
  rwa [hmode, horder, hrate]

theorem fmtI_eq_ok {k : IrqMode → Source → Instr} :
    fmtI a k = .ok i ↔ ∃ m src, a = argI m src ∧ k m src = i := by
  simp only [fmtI, named_eq_ok, beq_iff_eq, eq_argI_iff, irqModeOf_eq_some, and_assoc, exists_and_left,
    exists_eq_left']

theorem fmtX_eq_ok {k : Source → Bool → Instr} :
    fmtX a k = .ok i ↔ ∃ src val, a = argX src val ∧ k src val = i := by
  simp only [fmtX, reservedZero_eq_ok, beq_iff_eq, eq_argX_iff, and_assoc, exists_and_left,
    exists_eq_left']

theorem fmtC_eq_ok {k : CtrlCause → Bool → Instr} :
    fmtC a k = .ok i ↔ ∃ cause dir, a = argC cause dir ∧ k cause dir = i := by
  simp only [fmtC, named_eq_ok, beq_iff_eq, eq_argC_iff, causeOf_eq_some, and_assoc, exists_and_left,
    exists_eq_left']

theorem fmtCb_eq_ok {k : CbKind → Byte → Instr} :
    fmtCb a k = .ok i ↔ ∃ kind info, a = argCb kind info ∧ k kind info = i := by
  simp only [fmtCb, reservedZero_eq_ok, beq_iff_eq, eq_argCb_iff, Bool.and_eq_true, ← cbKindOf_eq_iff, and_assoc, exists_and_left,
    exists_eq_left']

theorem fmtXfer_eq_ok {k : XferLen → BitVec 2 → Bool → BitVec 16 → Instr} :
    fmtXfer a k = .ok i ↔ ∃ len mode order value, a = argXfer len mode order value ∧ k len mode order value = i := by
  simp only [fmtXfer, named_eq_ok, beq_iff_eq, eq_argXfer_iff, xferLenOf_eq_some, and_assoc, exists_and_left,
    exists_eq_left']

theorem fmtR24_eq_ok {k : BitVec 24 → Instr} : fmtR24 a k = .ok i ↔ ∃ rate, a = rate ∧ k rate = i := by
  simp only [fmtR24, Except.ok.injEq, exists_eq_left']

end

/-! ### Rows and words (R104 to R108, R112, R113) -/

/-- Every instruction is read back from the key and the operand it is written as. -/
theorem decodeRow_encode (i : Instr) : ∃ key a, encode i = word key a ∧ decodeRow key a = .ok i := by
  cases i
  case uBegin rate => exact ⟨_, _, rfl, fmtR24_eq_ok.2 ⟨rate, rfl, rfl⟩⟩
  case uWrite b | iWrite b | sXfer b | evXint b | evURxrdy b | evIData b | oUTx b | oITx b =>
    exact ⟨_, _, rfl, fmtB_eq_ok.2 ⟨b, rfl, rfl⟩⟩
  case sXfer16 h | sSetdiv h => exact ⟨_, _, rfl, fmtH_eq_ok.2 ⟨h, rfl, rfl⟩⟩
  case sXfer9 n => exact ⟨_, _, rfl, fmtW9_eq_ok.2 ⟨n, rfl, rfl⟩⟩
  case uSet7bit f | uSetstop f | iOnreceive f | iOnrequest f | sSetorder f =>
    exact ⟨_, _, rfl, fmtF1_eq_ok.2 ⟨f, rfl, rfl⟩⟩
  case sSetmode v => exact ⟨_, _, rfl, fmtF2_eq_ok.2 ⟨v, rfl, rfl⟩⟩
  case uSetparity p => exact ⟨_, _, rfl, fmtParity_eq_ok.2 ⟨p, rfl, rfl⟩⟩
  case iBegintx ten addr => exact ⟨_, _, rfl, fmtA_eq_ok.2 ⟨ten, addr, rfl, rfl⟩⟩
  case iBegin slave ten addr | oIStart slave ten addr =>
    exact ⟨_, _, rfl, fmtAS_eq_ok.2 ⟨slave, ten, addr, rfl, rfl⟩⟩
  case iReqfrom count ten addr => exact ⟨_, _, rfl, fmtAQ_eq_ok.2 ⟨count, ten, addr, rfl, rfl⟩⟩
  case sBegintrans set => exact ⟨_, _, rfl, fmtS_eq_ok.2 ⟨set, rfl, rfl⟩⟩
  case sUsingint m src => exact ⟨_, _, rfl, fmtI_eq_ok.2 ⟨m, src, rfl, rfl⟩⟩
  case sysXie src val => exact ⟨_, _, rfl, fmtX_eq_ok.2 ⟨src, val, rfl, rfl⟩⟩
  case evICtrl cause dir => exact ⟨_, _, rfl, fmtC_eq_ok.2 ⟨cause, dir, rfl, rfl⟩⟩
  case oCb kind info => exact ⟨_, _, rfl, fmtCb_eq_ok.2 ⟨kind, info, rfl, rfl⟩⟩
  case oSXfer len mode order value => exact ⟨_, _, rfl, fmtXfer_eq_ok.2 ⟨len, mode, order, value, rfl, rfl⟩⟩
  all_goals exact ⟨_, _, rfl, fmtN_eq_ok.2 ⟨rfl, rfl⟩⟩

/-- What a row reads is written as the key and the operand it was read from. -/
theorem encode_of_decodeRow {key : BitVec 8} {a : Arg} {i : Instr} (h : decodeRow key a = .ok i) :
    encode i = word key a := by
  unfold decodeRow at h
  split at h
  all_goals
    simp only [fmtN_eq_ok, fmtB_eq_ok, fmtH_eq_ok, fmtW9_eq_ok, fmtR24_eq_ok, fmtF1_eq_ok, fmtF2_eq_ok, fmtParity_eq_ok,
      fmtA_eq_ok, fmtAS_eq_ok, fmtAQ_eq_ok, fmtS_eq_ok, fmtI_eq_ok, fmtX_eq_ok, fmtC_eq_ok, fmtCb_eq_ok, fmtXfer_eq_ok,
      reduceCtorEq] at h
  all_goals
    casesm* Exists _, _ ∧ _
    subst_vars
    rfl

/-- The row of a word reads an instruction exactly when the word is that instruction's. -/
theorem decodeRow_eq_ok {w : Word} {i : Instr} : decodeRow (keyOf w) (argOf w) = .ok i ↔ encode i = w := by
  refine ⟨fun h => (encode_of_decodeRow h).trans (word_keyOf_argOf w), ?_⟩
  rintro rfl
  obtain ⟨key, a, he, hd⟩ := decodeRow_encode i
  rw [he, keyOf_word, argOf_word, hd]

/-- A word decodes to exactly the well-formed instruction it is the word of. -/
theorem decode_eq_ok {nsrc : Nat} {w : Word} {i : Instr} :
    decode nsrc w = .ok i ↔ wellFormed nsrc i = true ∧ encode i = w := by
  rw [← decodeRow_eq_ok]
  unfold decode
  cases decodeRow (keyOf w) (argOf w) with
  | error c => simp
  | ok j =>
    have hok : constrain nsrc j = .ok i ↔ wellFormed nsrc j = true ∧ j = i := by simp [constrain, ite_eq_iff]
    simp only [hok, Except.ok.injEq]
    exact and_congr_left fun hj => hj ▸ Iff.rfl

/-- Settles O1. -/
theorem decodeInvertsEncode : Obligations.DecodeInvertsEncode := fun _ _ hwf => decode_eq_ok.2 ⟨hwf, rfl⟩

/-- Settles O2. -/
theorem encodeInvertsDecode : Obligations.EncodeInvertsDecode := fun _ _ _ h => (decode_eq_ok.1 h).symm

end Sys2Proof
end

section
/-! The checks a word passes: O3 (R102, R109). A key without a row is rejected whatever its operand, and a word of a row only for
its operand; the tables of R104 to R108 name the rows of their units. -/

namespace Sys2Proof

/-! ### Errors -/

/-- A rejection is that of a bad operand. -/
def OperandError (e : Except IllCode Instr) : Prop := ∀ c, e = .error c → c = .operand

theorem operandError_ok (i : Instr) : OperandError (.ok i) := nofun

theorem operandError_operand : OperandError (.error .operand) := by
  rintro c ⟨⟩
  rfl

theorem operandError_reservedZero (ok : Bool) (i : Instr) : OperandError (reservedZero ok i) := by
  cases ok
  · exact operandError_operand
  · exact operandError_ok i

theorem operandError_named {α : Type} (reserved : Prop) [Decidable reserved] (o : Option α) (k : α → Instr) :
    OperandError (if reserved then named (o.map k) else .error .operand) := by
  by_cases hr : reserved
  · rw [if_pos hr]
    cases o
    · exact operandError_operand
    · exact operandError_ok _
  · rw [if_neg hr]
    exact operandError_operand

/-- Whether a key has a row does not depend on the operand; a row rejects only what its operand does wrong (R109). -/
theorem decodeRow_rejects (key : BitVec 8) (a : Arg) :
    OperandError (decodeRow key a) ∨ ∀ b, decodeRow key b = .error .opcode := by
  unfold decodeRow
  split
  all_goals
    simp only [fmtN, fmtB, fmtH, fmtW9, fmtR24, fmtF1, fmtF2, fmtParity, fmtA, fmtAS, fmtAQ, fmtS, fmtI, fmtX, fmtC,
      fmtCb, fmtXfer, operandError_ok, operandError_reservedZero, operandError_named, true_or, or_true, implies_true]

/-- A key of the opcode table: its row takes an operand, or rejects one, but is not missing (R109 item 2). -/
def HasRow (key : BitVec 8) : Prop := decodeRow key 0#24 ≠ .error .opcode

theorem operandError_of_hasRow {key : BitVec 8} (h : HasRow key) (a : Arg) : OperandError (decodeRow key a) :=
  (decodeRow_rejects key a).resolve_right fun hno => h (hno _)

theorem decodeRow_of_not_hasRow {key : BitVec 8} (h : ¬ HasRow key) (a : Arg) : decodeRow key a = .error .opcode :=
  (decodeRow_rejects key 0#24).elim (fun herr => absurd (herr _ (not_not.1 h)) (by decide)) fun hno => hno a

theorem decode_of_not_hasRow {nsrc : Nat} {w : Word} (h : ¬ HasRow (keyOf w)) : decode nsrc w = .error .opcode := by
  rw [decode, decodeRow_of_not_hasRow h]

/-- A word of a row is rejected for its operand only: reserved bits, codes or value constraints (R109 item 3, R111). -/
theorem operandError_decode {nsrc : Nat} {w : Word} (h : HasRow (keyOf w)) : OperandError (decode nsrc w) := by
  have hrow := operandError_of_hasRow h (argOf w)
  unfold decode
  revert hrow
  cases decodeRow (keyOf w) (argOf w) with
  | ok i => exact fun _ => operandError_reservedZero (wellFormed nsrc i) i
  | error c => exact id

theorem hasRow_of_decode {nsrc : Nat} {w : Word} {i : Instr} (h : decode nsrc w = .ok i) : HasRow (keyOf w) := by
  by_contra hno
  rw [decode_of_not_hasRow hno] at h
  cases h

/-! ### The ports (R102, R109) -/

theorem decodeCmd_of_cmd_unit {nsrc : Nat} {w : Word} (h : (unitOf w).toNat < 8) : decodeCmd nsrc w = decode nsrc w :=
  if_neg (Nat.not_le.2 h)

theorem decodeEvt_eq_some {nsrc : Nat} {w : Word} {i : Instr} :
    decodeEvt nsrc w = some i ↔ (8 ≤ (unitOf w).toNat ∧ (unitOf w).toNat ≤ 10) ∧ decode nsrc w = .ok i := by
  unfold decodeEvt
  cases decode nsrc w <;> simp [Except.toOption]

/-- `unit` lies in the key (R101). -/
theorem unit_of_key (w : Word) : w.extractLsb' 28 4 = (word (keyOf w) 0#24).extractLsb' 28 4 :=
  (unitOf_eq_keyOf w).trans (unitOf_word _ _).symm

/-- `op` lies in the key (R101). -/
theorem op_of_key (w : Word) : w.extractLsb' 24 4 = (word (keyOf w) 0#24).extractLsb' 24 4 := by
  have hop (a : Arg) : (word (keyOf w) a).extractLsb' 24 4 = (keyOf w).extractLsb' 0 4 :=
    extract_high _ _ _ _ (le_refl _)
  rw [hop, ← hop (argOf w), word_keyOf_argOf]

end Sys2Proof

namespace Sys2Proof.Machine

/-! ### The tables of R104 to R108, key by key -/

theorem cmdRow_word_iff : ∀ key : BitVec 8,
    cmdRow (word key 0#24) = true ↔ (key.extractLsb' 4 4).toNat < 8 ∧ HasRow key := by
  unfold HasRow
  decide

theorem evtRow_word_iff : ∀ key : BitVec 8, evtRow (word key 0#24) = true
    ↔ (8 ≤ (key.extractLsb' 4 4).toNat ∧ (key.extractLsb' 4 4).toNat ≤ 10) ∧ HasRow key := by
  unfold HasRow
  decide

/-- The pairs of the CMD port that are not reserved are the rows of units 0 to 7. -/
theorem cmdRow_iff {w : Word} : cmdRow w = true ↔ (unitOf w).toNat < 8 ∧ HasRow (keyOf w) := by
  rw [unitOf_eq_keyOf, ← cmdRow_word_iff]
  unfold cmdRow
  rw [unit_of_key w, op_of_key w]

/-- The pairs of the EVT port that are not reserved are the rows of units 8 to 10. -/
theorem evtRow_iff {w : Word} :
    evtRow w = true ↔ (8 ≤ (unitOf w).toNat ∧ (unitOf w).toNat ≤ 10) ∧ HasRow (keyOf w) := by
  rw [unitOf_eq_keyOf, ← evtRow_word_iff]
  unfold evtRow
  rw [unit_of_key w, op_of_key w]

/-- Settles O3: port, opcode and operand in that order; then the words of each port's rows. -/
theorem wordChecks : Obligations.WordChecks := by
  intro nsrc w
  refine ⟨fun hport => if_pos hport, fun hunit hrow => ?_, fun hrow hillegal => ?_, fun i hrow hwf henc => ?_,
    fun i => ?_⟩
  · rw [decodeCmd_of_cmd_unit hunit]
    exact decode_of_not_hasRow fun hkey => Bool.eq_false_iff.1 hrow (cmdRow_iff.2 ⟨hunit, hkey⟩)
  · obtain ⟨hunit, hkey⟩ := cmdRow_iff.1 hrow
    rw [decodeCmd_of_cmd_unit hunit]
    cases hd : decode nsrc w with
    | ok i =>
      obtain ⟨hwf, henc⟩ := decode_eq_ok.1 hd
      exact absurd henc (hillegal i hwf)
    | error c => rw [operandError_decode hkey c hd]
  · rw [decodeCmd_of_cmd_unit (cmdRow_iff.1 hrow).1]
    exact decode_eq_ok.2 ⟨hwf, henc⟩
  · rw [decodeEvt_eq_some, evtRow_iff, ← decode_eq_ok, and_assoc (b := HasRow (keyOf w))]
    exact and_congr_right' ⟨fun hd => ⟨hasRow_of_decode hd, hd⟩, And.right⟩

end Sys2Proof.Machine
end

section
/-! What a command is answered: O6, O7, O51, O52 (R100, R109, R110, R307, R320, R321). An accepted command that is not refused
is answered in the same context or puts the top frame into a wait; events and output rows answer nothing. -/

namespace Sys2Proof.Machine

/-! ### Commands, events and output rows (R102) -/

theorem cmd_unit_iff {i : Instr} : (unitOf (encode i)).toNat < 8 ↔ portOf i = .cmd := by
  cases i
  all_goals
    simp only [encode, unitOf_word, portOf]
    decide

/-- While the top frame waits no command is accepted (R307). -/
theorem exec_of_waiting {i : Instr} {s : State} (hcmd : portOf i = .cmd) (hwait : s.cmdReady = false) :
    exec i s = .next s := by
  cases i
  case evTick | evXint | evUTxrdy | evURxrdy | evUBreak | evIData | evICtrl | evIAddrack | evIStopdone | oCb | oUTx | oIStart
    | oITx | oIStop | oINack | oSXfer => cases hcmd
  all_goals exact command_of_waiting hwait

theorem portOf_of_decodeCmd {nsrc : Nat} {w : Word} {i : Instr} (h : decodeCmd nsrc w = .ok i) : portOf i = .cmd := by
  unfold decodeCmd at h
  split at h
  · cases h
  · rename_i hunit
    rwa [← cmd_unit_iff, decode_unit h, ← Nat.not_le]

/-- Settles O7: the word is rejected unread, or it decodes to a command, which a waiting frame does not accept. -/
theorem waitingFrameAcceptsNoCommand : Obligations.WaitingFrameAcceptsNoCommand := by
  intro s w m rest hscript hwait
  have hready : (s.presented { s.nextEnv with miso := m }).cmdReady = false := by
    simpa [State.cmdReady, State.presented] using hwait
  have htaken : s.presented { s.nextEnv with miso := m } = { s.taken rest with env.miso := m } := by
    rw [nextEnv_of_script hscript]
    rfl
  rw [← htaken]
  cases hd : decodeCmd s.params.nsrc w with
  | ok i => rw [step_of_cmd (nextIn_of_script hscript) hd, exec_of_waiting (portOf_of_decodeCmd hd) hready]
  | error c => rw [step_of_bad_cmd (nextIn_of_script hscript) hd, command_of_waiting hready]

/-- Settles O6. -/
theorem stepRejectsBadWords : Obligations.StepRejectsBadWords := by
  intro s w rest
  refine ⟨fun m c hscript hready hd => ?_, fun hscript hd => ?_⟩
  · have haccepted : (s.presented { s.nextEnv with miso := m }).cmdReady = true := hready
    rw [step_of_bad_cmd (nextIn_of_script hscript) hd, command_of_ready haccepted, nextEnv_of_script hscript]
    cases c <;> rfl
  · rw [step_of_bad_evt (nextIn_of_script hscript) hd, nextEnv_of_script hscript]
    rfl

/-! ### Refusals (R321) -/

theorem exec_of_refusedWhen {i : Instr} {s : State} (hready : s.cmdReady = true) (h : refusedWhen i s = true) :
    exec i s = refuse s := by
  cases i
  case sysIret =>
    have hleave : leaveWindow s = none := leaveWindow_eq_none.2 (beq_iff_eq.1 h)
    simp only [exec, execSysIret, command_of_ready hready, hleave]
  case iBegin | iEnd | iBegintx | iEndtx | iReqfrom | sEndtrans | sXfer | sXfer16 | sXfer9 =>
    exact (command_of_ready hready).trans (if_pos h)
  all_goals cases h

/-! ### What an accepted command is answered (R110) -/

/-- What an accepted command that is not refused comes to: an answer in the same context, or a wait of the top frame. -/
inductive CommandEffect (s t : State) : Prop where
  | answered (v : Word) (hanswers : t.out.answers = s.out.answers ++ [⟨false, v⟩]) (hctx : t.sys.ctx = s.sys.ctx)
  | held (hanswers : t.out.answers = s.out.answers) (hwait : t.sys.ctx.top.wait ≠ .none)
      (hbelow : t.sys.ctx.below = s.sys.ctx.below)

theorem SameFrame.commandEffect {s t u : State} (h : SameFrame s t) (he : CommandEffect t u) : CommandEffect s u := by
  obtain ⟨hsys, hout⟩ := h
  cases he with
  | answered v hanswers hctx => exact .answered v (hout ▸ hanswers) (hsys ▸ hctx)
  | held hanswers hwait hbelow => exact .held (hout ▸ hanswers) hwait (hsys ▸ hbelow)

theorem respond_commandEffect (v : Word) (s : State) : CommandEffect s (respond v s) := .answered v rfl rfl

/-- An answer whose state change leaves the context and the answers alone. -/
theorem ensures_answered {s t : State} (v : Word) (hctx : t.sys.ctx = s.sys.ctx)
    (hanswers : t.out.answers = s.out.answers) : Ensures (CommandEffect s) (.next (respond v t)) :=
  ensures_next (.answered v (by rw [respond_out_answers, hanswers]) hctx)

theorem ensures_held {s t : State} {w : Wait} (hw : w ≠ .none) (hbelow : t.sys.ctx.below = s.sys.ctx.below)
    (hanswers : t.out.answers = s.out.answers) : Ensures (CommandEffect s) (.next (hold w t)) :=
  ensures_next (.held hanswers hw hbelow)

@[simp] theorem unmaskSource_sys_ctx (s : State) : (unmaskSource s).sys.ctx = s.sys.ctx := by
  unfold unmaskSource
  split <;> rfl

theorem ensures_accepted {P : State → Prop} {s : State} {body : Out State} (hready : s.cmdReady = true)
    (h : Ensures P body) : Ensures P (command s body) := by
  rwa [command_of_ready hready]

theorem ensures_of_not_refused {P : State → Prop} {c : Bool} {a b : Out State} (hc : c = false) (h : Ensures P b) :
    Ensures P (if c then a else b) := by
  rwa [hc, if_neg Bool.false_ne_true]

section
variable {s : State}

theorem readFrom_commandEffect (sp : Space) : Ensures (CommandEffect s) (readFrom sp s) :=
  ensures_ite (fun _ => ensures_answered _ rfl rfl) fun _ => ensures_orFault fun _ hpop =>
    ensures_next ((popFrom_sameFrame hpop).commandEffect (respond_commandEffect _ _))

theorem peekAt_commandEffect (sp : Space) : Ensures (CommandEffect s) (peekAt sp s) :=
  ensures_ite (fun _ => ensures_answered _ rfl rfl) fun _ => ensures_orFault fun _ _ => ensures_answered _ rfl rfl

theorem execUWrite_commandEffect (hready : s.cmdReady = true) (b : Byte) :
    Ensures (CommandEffect s) (execUWrite b s) := by
  refine ensures_accepted hready (ensures_ite (fun _ => ensures_orFault fun _ hq => ?_) fun _ => ?_)
  · exact ensures_next ((queueTx_sameFrame hq).commandEffect (respond_commandEffect _ _))
  · exact ensures_ite (fun _ => ensures_answered _ rfl rfl) fun _ => ensures_held nofun rfl rfl

theorem execIWrite_commandEffect (hready : s.cmdReady = true) (b : Byte) :
    Ensures (CommandEffect s) (execIWrite b s) :=
  ensures_accepted hready (ensures_ite (fun _ => ensures_answered _ rfl rfl) fun _ => ensures_orFault fun _ hpush =>
    ensures_next ((pushTo_sameFrame hpush).commandEffect (respond_commandEffect _ _)))

theorem execSBegintrans_commandEffect (hready : s.cmdReady = true) (set : SpiSettings) :
    Ensures (CommandEffect s) (execSBegintrans set s) :=
  ensures_accepted hready (ensures_ite (fun _ => ensures_answered _ rfl rfl) fun _ =>
    ensures_held nofun (by rw [setGie_sys_ctx, maskSource_sys_ctx]) (by rw [setGie_out, maskSource_out]))

theorem execSEndtrans_commandEffect (hready : s.cmdReady = true) (hlock : (!s.spi.lock) = false) :
    Ensures (CommandEffect s) (execSEndtrans s) :=
  ensures_accepted hready (ensures_of_not_refused hlock (ensures_answered _
    (by rw [setGie_sys_ctx, setCfg_sys, unmaskSource_sys_ctx]) (by rw [setGie_out, setCfg_out, unmaskSource_out])))

theorem spiTransfer_commandEffect (hen : (!s.spi.en) = false) (len : XferLen) (v : BitVec 16) (r : Word) :
    Ensures (CommandEffect s) (spiTransfer len v r s) := by
  refine ensures_of_not_refused hen ?_
  split
  · exact ensures_answered _ rfl rfl
  · exact ensures_fault _

theorem execSGetcfg_commandEffect (hready : s.cmdReady = true) : Ensures (CommandEffect s) (execSGetcfg s) := by
  refine ensures_accepted hready ?_
  split
  · exact ensures_answered _ rfl rfl
  · exact ensures_fault _

end

/-- Every accepted command but `SYS_IRET`, which changes the context on purpose. -/
theorem exec_commandEffect {i : Instr} {s : State} (hcmd : portOf i = .cmd) (hiret : i ≠ .sysIret)
    (hready : s.cmdReady = true) (haccepted : refusedWhen i s = false) : Ensures (CommandEffect s) (exec i s) := by
  cases i
  case evTick | evXint | evUTxrdy | evURxrdy | evUBreak | evIData | evICtrl | evIAddrack | evIStopdone | oCb | oUTx | oIStart
    | oITx | oIStop | oINack | oSXfer => cases hcmd
  case sysIret => exact absurd rfl hiret
  case uWrite b => exact execUWrite_commandEffect hready b
  case iWrite b => exact execIWrite_commandEffect hready b
  case uRead | iRead => exact ensures_accepted hready (readFrom_commandEffect _)
  case uPeek | iPeek => exact ensures_accepted hready (peekAt_commandEffect _)
  case uFlush =>
    exact ensures_accepted hready
      (ensures_ite (fun _ => ensures_answered _ rfl rfl) fun _ => ensures_held nofun rfl rfl)
  case iBegin | iEnd | iBegintx =>
    exact ensures_accepted hready (ensures_of_not_refused haccepted (ensures_answered _ rfl rfl))
  case iEndtx => exact ensures_accepted hready (ensures_of_not_refused haccepted (ensures_held nofun rfl rfl))
  case iReqfrom =>
    exact ensures_accepted hready (ensures_of_not_refused haccepted
      (ensures_ite (fun _ => ensures_answered _ rfl rfl) fun _ => ensures_held nofun rfl rfl))
  case sBegintrans set => exact execSBegintrans_commandEffect hready set
  case sEndtrans => exact execSEndtrans_commandEffect hready haccepted
  case sXfer | sXfer16 | sXfer9 =>
    exact ensures_accepted hready (spiTransfer_commandEffect haccepted _ _ _)
  case sGetcfg => exact execSGetcfg_commandEffect hready
  all_goals exact ensures_accepted hready (ensures_answered _ rfl rfl)

/-- `SYS_IRET` answers 0 after the return from the window (R306). -/
theorem execSysIret_answers {s : State} (hready : s.cmdReady = true) (haccepted : refusedWhen .sysIret s = false) :
    Ensures (fun t => t.out.answers = s.out.answers ++ [⟨false, answerZero⟩]) (exec .sysIret s) := by
  refine ensures_accepted hready ?_
  cases hleave : leaveWindow s with
  | none => exact absurd (leaveWindow_eq_none.1 hleave) (beq_eq_false_iff_ne.1 haccepted)
  | some t =>
    obtain ⟨f, rest, -, rfl | rfl⟩ := leaveWindow_cases hleave
    · exact ensures_next rfl
    · exact ensures_next rfl

/-! ### Events and output rows answer nothing -/

/-- Nothing is put out on RSP. -/
def Silent (s t : State) : Prop := t.out.answers = s.out.answers

theorem SameFrame.silent {s t u : State} (h : SameFrame s t) (hu : Silent t u) : Silent s u :=
  hu.trans (congrArg Outputs.answers h.2)

theorem ensures_silent {s t : State} (h : t.out.answers = s.out.answers) : Ensures (Silent s) (.next t) := ensures_next h

section
variable {s : State}

theorem countRx_silent (s : State) : Silent s (countRx s) := by
  dsimp only [countRx]
  split
  · rfl
  · split <;> rfl

theorem endReception_silent (n : Nat) (s : State) : Silent s (endReception n s) := by
  unfold endReception
  split <;> rfl

theorem execEvIData_silent (b : Byte) : Ensures (Silent s) (execEvIData b s) := by
  refine ensures_event rfl fun _ => ?_
  cases s.i2c.role with
  | idle => exact ensures_silent rfl
  | masterTx | slaveTx =>
    exact ensures_ite (fun _ => ensures_silent rfl) fun _ =>
      ensures_orFault fun _ hpop => ensures_next ((popFrom_sameFrame hpop).silent rfl)
  | masterRx =>
    exact ensures_ite (fun _ => ensures_next (countRx_silent s)) fun _ =>
      ensures_orFault fun _ hpush => ensures_next ((pushTo_sameFrame hpush).silent (countRx_silent _))
  | slaveRx =>
    exact ensures_ite (fun _ => ensures_silent rfl) fun _ =>
      ensures_orFault fun _ hpush => ensures_next ((pushTo_sameFrame hpush).silent rfl)

theorem ctrlStop_silent : Ensures (Silent s) (ctrlStop s) := by
  unfold ctrlStop
  cases s.i2c.role with
  | slaveRx =>
    exact ensures_ite (fun _ => ensures_next (endReception_silent _ s)) fun _ =>
      ensures_orFault fun _ hmark => ensures_next ((markHead_sameFrame hmark).silent (endReception_silent _ _))
  | slaveTx | idle | masterTx | masterRx => exact ensures_silent rfl

theorem ctrlStart_silent (dir : Bool) : Ensures (Silent s) (ctrlStart dir s) := by
  refine ensures_ite (fun _ => ensures_ite (fun _ => ?_) fun _ => ensures_silent rfl) fun _ => ensures_silent rfl
  exact ensures_ite (fun _ => ensures_silent rfl) fun _ => ensures_silent rfl

theorem execEvICtrl_silent (cause : CtrlCause) (dir : Bool) : Ensures (Silent s) (execEvICtrl cause dir s) := by
  refine ensures_event rfl fun _ => ?_
  cases cause with
  | al => exact ensures_silent rfl
  | nack => exact ensures_ite (fun _ => ensures_silent rfl) fun _ => ensures_silent rfl
  | start => exact ctrlStart_silent dir
  | stop => exact ctrlStop_silent

end

theorem exec_silent {i : Instr} (hcmd : portOf i ≠ .cmd) (s : State) : Ensures (Silent s) (exec i s) := by
  have hsame : Silent s s := rfl
  cases i
  case evUTxrdy =>
    exact ensures_event hsame fun _ => ensures_ite (fun _ => ensures_silent rfl) fun _ =>
      ensures_orFault fun _ hpop => ensures_next ((popFrom_sameFrame hpop).silent rfl)
  case evURxrdy b =>
    exact ensures_event hsame fun _ => ensures_ite (fun _ => ensures_silent rfl) fun _ =>
      ensures_orFault fun _ hpush => ensures_next ((pushTo_sameFrame hpush).silent rfl)
  case evIData b => exact execEvIData_silent b
  case evICtrl cause dir => exact execEvICtrl_silent cause dir
  case evUBreak | evIAddrack =>
    exact ensures_event hsame fun _ => ensures_ite (fun _ => ensures_silent rfl) fun _ => ensures_silent rfl
  case evXint | evIStopdone => exact ensures_event hsame fun _ => ensures_silent rfl
  case evTick | oCb | oUTx | oIStart | oITx | oIStop | oINack | oSXfer => exact ensures_silent rfl
  all_goals exact absurd rfl hcmd

/-! ### Wait resolutions (R311 item 2) -/

/-- What the resolution of a wait comes to: the wait ends with an answer, or the frame goes on waiting. -/
inductive ResolutionEffect (s t : State) : Prop where
  | ended (v : Word) (hwait : t.sys.ctx.top.wait = .none) (hanswers : t.out.answers = s.out.answers ++ [⟨false, v⟩])
  | waits (hwait : t.sys.ctx.top.wait ≠ .none) (hanswers : t.out.answers = s.out.answers)

theorem resolveTop_resolutionEffect {s : State} (hwait : s.sys.ctx.top.wait ≠ .none) :
    Ensures (ResolutionEffect s) (resolveTop s) := by
  have hgoesOn : Ensures (ResolutionEffect s) (.next s) := ensures_next (.waits hwait rfl)
  unfold resolveTop
  cases hw : s.sys.ctx.top.wait with
  | none => exact absurd hw hwait
  | uWrite b =>
    exact ensures_ite (fun _ => hgoesOn) fun _ => ensures_orFault fun _ hq =>
      ensures_next (.ended _ rfl (by rw [respond_out_answers, setWait_out, (queueTx_sameFrame hq).2]))
  | uFlush => exact ensures_ite (fun _ => ensures_next (.ended _ rfl rfl)) fun _ => hgoesOn
  | iAddr k =>
    exact ensures_ite (fun _ => ensures_next (.waits nofun rfl)) fun _ =>
      ensures_ite (fun _ => ensures_next (.waits nofun rfl)) fun _ =>
        ensures_ite (fun _ => ensures_next (.waits nofun rfl)) fun _ => hgoesOn
  | iDone k => exact ensures_ite (fun _ => ensures_next (.waits nofun rfl)) fun _ => hgoesOn
  | iStop k => exact ensures_ite (fun _ => hgoesOn) fun _ => ensures_next (.ended _ rfl rfl)
  | sBegin2 set => exact ensures_next (.ended _ rfl rfl)

/-! ### The statements -/

/-- Settles O51: the table's cases are refused, and every other answer is that of a command that was not. -/
theorem refusalsAreTheListOfR321 : Obligations.RefusalsAreTheListOfR321 := by
  intro i s hready
  refine ⟨exec_of_refusedWhen hready, fun haccepted t hx a ha => ?_⟩
  suffices h : t.out.answers = s.out.answers ∨ ∃ v, t.out.answers = s.out.answers ++ [⟨false, v⟩] by
    obtain h | ⟨v, h⟩ := h
    · simp [h] at ha
    · obtain rfl : ⟨false, v⟩ = a := by simpa [h] using ha
      rfl
  by_cases hcmd : portOf i = .cmd
  · by_cases hiret : i = .sysIret
    · subst hiret
      exact .inr ⟨_, execSysIret_answers hready haccepted t hx⟩
    · cases exec_commandEffect hcmd hiret hready haccepted t hx with
      | answered v hanswers _ => exact .inr ⟨v, hanswers⟩
      | held hanswers _ _ => exact .inl hanswers
  · exact .inl (exec_silent hcmd s t hx)

/-- Settles O52. -/
theorem oneAnswerPerCommand : Obligations.OneAnswerPerCommand := by
  refine ⟨fun i s t hready hx => ⟨fun hunit => ?_, fun hunit => ?_⟩, fun s t hx hwait => ?_⟩
  · have htop := (cmdReady_iff s).1 hready
    have hcmd := cmd_unit_iff.1 hunit
    cases hr : refusedWhen i s with
    | true =>
      rw [exec_of_refusedWhen hready hr] at hx
      cases hx
      exact .inl ⟨⟨_, rfl⟩, fun _ => htop⟩
    | false =>
      by_cases hiret : i = .sysIret
      · subst hiret
        exact .inl ⟨⟨_, execSysIret_answers hready hr t hx⟩, fun h => absurd rfl h⟩
      · cases exec_commandEffect hcmd hiret hready hr t hx with
        | answered v hanswers hctx => exact .inl ⟨⟨_, hanswers⟩, fun _ => hctx ▸ htop⟩
        | held hanswers hwait hbelow => exact .inr ⟨hanswers, hwait, hbelow⟩
  · exact exec_silent (fun hcmd => Nat.not_lt.2 hunit (cmd_unit_iff.2 hcmd)) s t hx
  · cases resolveTop_resolutionEffect hwait t hx with
    | ended v hnone hanswers => exact .inl ⟨hnone, _, hanswers⟩
    | waits hwaits hanswers => exact .inr ⟨hwaits, hanswers⟩

end Sys2Proof.Machine
end

section
/-! Words written out: the examples of the spec, O4, and the layouts of the output words, O50 (R113, R115, R116). -/

namespace Sys2Proof

/-- Settles O4, word by word. -/
theorem exampleWordsDecode : Obligations.ExampleWordsDecode := by
  unfold Obligations.ExampleWordsDecode
  simp only [decode_eq_ok]
  decide

/-- A word of format `B` is a constant and a byte (R101, R103). -/
theorem word_argB (key : BitVec 8) (b : Byte) : word key (argB b) = (key ++ 0#16) ++ b := by
  unfold word argB
  refine (eq_append_iff (n := 24) (m := 8)).2 ⟨(extract_eq_append (a := 8) (b := 16)).2 ⟨?_, ?_⟩, ?_⟩
  all_goals simp (disch := omega) only [extract_low, extract_high, Machine.extract_whole]

end Sys2Proof

namespace Sys2Proof.Machine

theorem exec_of_out {i : Instr} (hout : portOf i = .out) (s : State) : exec i s = .next (s.emitting (encode i)) := by
  cases i
  case oCb | oUTx | oIStart | oITx | oIStop | oINack | oSXfer => rfl
  all_goals cases hout

/-- Settles O50: the meaning of an output row is its emission; what is left is the layout of its word. -/
theorem outputWordsAreEmitted : Obligations.OutputWordsAreEmitted := by
  intro s byte rw ten order addr mode value
  have hUTx : encode (.oUTx byte) = 0xD00000#24 ++ byte := word_argB 0xD0#8 byte
  have hITx : encode (.oITx byte) = 0xE10000#24 ++ byte := word_argB 0xE1#8 byte
  refine ⟨exec_of_out rfl s, exec_of_out rfl s, exec_of_out rfl s, exec_of_out rfl s, ?_, exec_of_out rfl s, ?_,
    exec_of_out rfl s, exec_of_out rfl s, fun len => ?_⟩
  · rw [exec_of_out rfl, hUTx]
  · rw [exec_of_out rfl, hITx]
  · rw [exec_of_out rfl]
    cases len <;> rfl

end Sys2Proof.Machine
end

section
/-! The ring primitives and the indices (R136 to R139, R142 to R145, R149, R228): the count laws, the statement O10; the
primitives on the contents and the slots, the statement O11; rotation invariance, the statement O14. -/

namespace Sys2Proof.Machine

/-! ### The count laws (R144) -/

section
variable {n : Nat} {r r' : Ring}

/-- A full ring takes no byte (R136). -/
theorem Ring.push_eq_pushFull (h : r.full n = true) (b : Byte) : r.push n b = .error .pushFull := if_pos h

/-- A push counts one more, and keeps both indices in range. -/
theorem Ring.count_push {b : Byte} (hhead : r.head < n) (htail : r.tail < n) (hpush : r.push n b = .ok r') :
    r'.count n = r.count n + 1 ∧ r'.head < n ∧ r'.tail < n := by
  obtain ⟨hfull, -, rfl⟩ := Ring.push_eq_ok.1 hpush
  exact ⟨Ring.count_of_push hhead htail hfull rfl rfl, inc_lt hhead, htail⟩

/-- Of more bytes than there is space for, one meets a full ring. -/
theorem Ring.pushAll_eq_pushFull (hhead : r.head < n) (htail : r.tail < n) (bs : List Byte)
    (hmany : n - 1 < r.count n + bs.length) : Ring.pushAll n r bs = .error .pushFull := by
  induction bs generalizing r with
  | nil =>
    have hlt := Ring.count_lt hhead htail
    rw [List.length_nil] at hmany
    omega
  | cons b bs ih =>
    rw [List.length_cons] at hmany
    cases hfull : r.full n with
    | true => rw [Ring.pushAll, Ring.push_eq_pushFull hfull]
    | false =>
      have hpush := Ring.push_eq_ok (b := b).2 ⟨hfull, hhead, rfl⟩
      obtain ⟨hcount, hhead', htail'⟩ := Ring.count_push hhead htail hpush
      rw [Ring.pushAll, hpush]
      exact ih hhead' htail' (by omega)

end

/-- Settles O10: `count` read off the indices, and one step of it for each primitive that moves one. -/
theorem ringCountLaws : Obligations.RingCountLaws := by
  intro n r _ hhead htail
  have hlt := Ring.count_lt hhead htail
  refine ⟨Nat.le_sub_one_of_lt hlt, Ring.empty_iff hhead htail, Ring.full_iff hhead htail, fun b r' hpush => ?push,
    fun v r' hpop => ?pop, Ring.count_clear r, Nat.add_sub_of_le (Nat.le_sub_one_of_lt hlt), Nat.ne_of_lt hlt,
    fun _ bs hlen => Ring.pushAll_eq_pushFull hhead htail bs (by omega)⟩
  case push =>
    obtain ⟨hcount, -⟩ := Ring.count_push hhead htail hpush
    exact hcount
  case pop =>
    obtain ⟨hempty, -, -, rfl⟩ := Ring.pop_eq_ok.1 hpop
    exact Ring.count_of_pop hhead htail hempty rfl rfl

/-! ### The contents and the slots (R136 to R139, R143, R149, R228) -/

/-- The slot `head` names is none of the contents, so a write there leaves them alone (R228). -/
theorem Ring.contents_set_head {n : Nat} {r : Ring} (hhead : r.head < n) (htail : r.tail < n) (v : Byte) :
    Ring.contents n { r with buf := r.buf.set r.head v } = r.contents n :=
  List.map_congr_left fun _ hk =>
    Memory.at?_set_other _ _ (Ring.slot_ne_head hhead htail (List.mem_range.1 hk))

theorem Ring.contents_clear (n : Nat) (r : Ring) : r.clear.contents n = [] := by
  rw [← List.length_eq_zero_iff, Ring.length_contents, Ring.count_clear]

/-- Settles O11, primitive by primitive. -/
theorem ringPrimitivesOnContents : Obligations.RingPrimitivesOnContents := by
  intro n r h
  have ⟨hhead, htail, _⟩ := h
  refine ⟨fun b hfull => ?push, fun hempty => ?pop, h.clear, Ring.contents_clear n r, rfl, fun v => ?mark⟩
  case push =>
    have hpush := Ring.push_eq_ok (b := b).2 ⟨hfull, hhead, rfl⟩
    obtain ⟨hok, -⟩ := h.push hpush
    exact ⟨_, hpush, hok, h.contents_push hpush, rfl, Memory.at?_set_same _ _ _,
      fun _ hi => Memory.at?_set_other _ _ hi⟩
  case pop =>
    obtain ⟨v, hv⟩ := h.tail_written hempty
    have hpop := Ring.pop_eq_ok.2 ⟨hempty, htail, hv, rfl⟩
    obtain ⟨hok, -⟩ := h.pop hpop
    exact ⟨v, _, hpop, Ring.front_eq_ok.2 ⟨hempty, htail, hv⟩, hok, h.contents_pop hpop, rfl, rfl⟩
  case mark =>
    exact ⟨_, Ring.mark_eq_ok.2 ⟨hhead, rfl⟩, h.mark v, Ring.contents_set_head hhead htail v, rfl, rfl,
      Memory.at?_set_same _ _ _, fun _ hi => Memory.at?_set_other _ _ hi⟩

/-! ### Rotation (R145) -/

/-- Rotating by `k` moves different indices to different indices. -/
theorem rotate_inj {n k i j : Nat} (hi : i < n) (hj : j < n) : (i + k) % n = (j + k) % n ↔ i = j :=
  ⟨fun h => (Nat.ModEq.add_right_cancel' k h).eq_of_lt_of_lt hi hj, fun h => by rw [h]⟩

/-- `inc` commutes with rotation. -/
theorem inc_rotate (n k i : Nat) : inc n ((i + k) % n) = (inc n i + k) % n := by
  simp only [inc, Nat.mod_add_mod, Nat.add_right_comm]

/-- Different ages below the modulus lie in different slots. -/
theorem Ring.slot_inj {n i j : Nat} {r : Ring} (hi : i < n) (hj : j < n) : r.slot n i = r.slot n j ↔ i = j := by
  rw [Ring.slot, Ring.slot, Nat.add_comm, Nat.add_comm r.tail j, rotate_inj hi hj]

section
variable {n k : Nat} {r r' : Ring}

theorem Ring.Rotated.head_lt (h : Ring.Rotated n k r r') (hhead : r.head < n) : r'.head < n := by
  obtain ⟨h', -⟩ := h
  exact h' ▸ Nat.mod_lt _ (by omega)

theorem Ring.Rotated.tail_lt (h : Ring.Rotated n k r r') (htail : r.tail < n) : r'.tail < n := by
  obtain ⟨-, h', -⟩ := h
  exact h' ▸ Nat.mod_lt _ (by omega)

/-- A byte keeps its age: the slot of the `j`-th oldest byte is rotated with the indices. -/
theorem Ring.Rotated.slot (h : Ring.Rotated n k r r') (j : Nat) : r'.slot n j = (r.slot n j + k) % n := by
  obtain ⟨-, htail', -⟩ := h
  simp only [Ring.slot, htail', Nat.mod_add_mod, Nat.add_right_comm]

theorem Ring.Rotated.empty_eq (h : Ring.Rotated n k r r') (hhead : r.head < n) (htail : r.tail < n) :
    r'.empty = r.empty := by
  obtain ⟨hhead', htail', -⟩ := h
  rw [Bool.eq_iff_iff, Ring.empty, Ring.empty, beq_iff_eq, beq_iff_eq, hhead', htail', rotate_inj hhead htail]

theorem Ring.Rotated.full_eq (h : Ring.Rotated n k r r') (hhead : r.head < n) (htail : r.tail < n) :
    r'.full n = r.full n := by
  obtain ⟨hhead', htail', -⟩ := h
  rw [Bool.eq_iff_iff, Ring.full, Ring.full, beq_iff_eq, beq_iff_eq, hhead', htail', inc_rotate,
    rotate_inj (inc_lt hhead) htail]

/-- `count` is the age of the slot `head` names, and ages are kept. -/
theorem Ring.Rotated.count_eq (h : Ring.Rotated n k r r') (hhead : r.head < n) (htail : r.tail < n) :
    r'.count n = r.count n := by
  have hhead' := h.head_lt hhead
  have htail' := h.tail_lt htail
  refine (Ring.slot_inj (r := r') (Ring.count_lt hhead' htail') (Ring.count_lt hhead htail)).1 ?_
  rw [Ring.slot_count hhead' htail', h.slot, Ring.slot_count hhead htail]
  obtain ⟨heq, -⟩ := h
  exact heq

theorem Ring.Rotated.front_eq (h : Ring.Rotated n k r r') (hhead : r.head < n) (htail : r.tail < n) :
    r'.front n = r.front n := by
  have htail' := h.tail_lt htail
  rw [Ring.front, Ring.front, h.empty_eq hhead htail, memRead, memRead, if_pos htail', if_pos htail]
  obtain ⟨-, heq, hbuf⟩ := h
  rw [heq, hbuf _ htail]

theorem Ring.Rotated.contents_eq (h : Ring.Rotated n k r r') (hhead : r.head < n) (htail : r.tail < n) :
    r'.contents n = r.contents n := by
  rw [Ring.contents, Ring.contents, h.count_eq hhead htail]
  refine List.map_congr_left fun j _ => ?_
  rw [h.slot]
  obtain ⟨-, -, hbuf⟩ := h
  exact hbuf _ (Nat.mod_lt _ (by omega))

/-- Writing the slot `head` names commutes with rotation. -/
theorem Ring.Rotated.set_head (h : Ring.Rotated n k r r') (hhead : r.head < n) (v : Byte) :
    Ring.Rotated n k { r with buf := r.buf.set r.head v } { r' with buf := r'.buf.set r'.head v } := by
  obtain ⟨hhead', htail', hbuf⟩ := h
  refine ⟨hhead', htail', fun i hi => ?_⟩
  simp only [Memory.at?_set, hhead', rotate_inj hi hhead, hbuf i hi]

/-- Advancing `head` commutes with rotation. -/
theorem Ring.Rotated.inc_head (h : Ring.Rotated n k r r') :
    Ring.Rotated n k { r with head := inc n r.head } { r' with head := inc n r'.head } := by
  obtain ⟨hhead', htail', hbuf⟩ := h
  exact ⟨by rw [hhead', inc_rotate], htail', hbuf⟩

/-- Advancing `tail` commutes with rotation. -/
theorem Ring.Rotated.inc_tail (h : Ring.Rotated n k r r') :
    Ring.Rotated n k { r with tail := inc n r.tail } { r' with tail := inc n r'.tail } := by
  obtain ⟨hhead', htail', hbuf⟩ := h
  exact ⟨hhead', by rw [htail', inc_rotate], hbuf⟩

theorem Ring.Rotated.push {b : Byte} {t : Ring} (h : Ring.Rotated n k r r') (htail : r.tail < n)
    (hpush : r.push n b = .ok t) : ∃ t', r'.push n b = .ok t' ∧ Ring.Rotated n k t t' := by
  obtain ⟨hfull, hhead, rfl⟩ := Ring.push_eq_ok.1 hpush
  exact ⟨_, Ring.push_eq_ok.2 ⟨(h.full_eq hhead htail).trans hfull, h.head_lt hhead, rfl⟩,
    (h.set_head hhead b).inc_head⟩

theorem Ring.Rotated.pop {v : Byte} {t : Ring} (h : Ring.Rotated n k r r') (hhead : r.head < n)
    (hpop : r.pop n = .ok (v, t)) : ∃ t', r'.pop n = .ok (v, t') ∧ Ring.Rotated n k t t' := by
  obtain ⟨hempty, htail, hv, rfl⟩ := Ring.pop_eq_ok.1 hpop
  obtain ⟨hempty', htail', hv'⟩ :=
    Ring.front_eq_ok.1 ((h.front_eq hhead htail).trans (Ring.front_eq_ok.2 ⟨hempty, htail, hv⟩))
  exact ⟨_, Ring.pop_eq_ok.2 ⟨hempty', htail', hv', rfl⟩, h.inc_tail⟩

theorem Ring.Rotated.mark {v : Byte} {t : Ring} (h : Ring.Rotated n k r r') (hmark : r.mark n v = .ok t) :
    ∃ t', r'.mark n v = .ok t' ∧ Ring.Rotated n k t t' := by
  obtain ⟨hhead, rfl⟩ := Ring.mark_eq_ok.1 hmark
  exact ⟨_, Ring.mark_eq_ok.2 ⟨h.head_lt hhead, rfl⟩, h.set_head hhead v⟩

end

/-- Settles O14: rotation keeps every byte's age, and each primitive commutes with it. -/
theorem ringRotationInvariance : Obligations.RingRotationInvariance := fun _ _ _ _ hhead htail h =>
  ⟨h.empty_eq hhead htail, h.full_eq hhead htail, h.count_eq hhead htail, h.front_eq hhead htail,
    h.contents_eq hhead htail, fun _ _ => h.push htail, fun _ _ => h.pop hhead, fun _ _ => h.mark⟩

end Sys2Proof.Machine
end

section
/-! The power-of-two form of the index arithmetic, the statement O13 (R141): for `N = 2^k` a mask or `k`-bit wrapping is
reduction modulo `N`; for any other modulus the mask loses a bit, and wrapping happens past the last index. -/

namespace Sys2Proof.Machine

/-! ### Moduli `2^k` -/

/-- Wrapping subtraction of `k`-bit indices is the count of R134. -/
theorem toNat_sub_eq_count {k head tail : Nat} (hhead : head < 2 ^ k) (htail : tail < 2 ^ k) :
    (BitVec.ofNat k head - BitVec.ofNat k tail).toNat = Ring.count (2 ^ k) ⟨[], head, tail⟩ := by
  rw [BitVec.toNat_sub, BitVec.toNat_ofNat, BitVec.toNat_ofNat, Nat.mod_eq_of_lt hhead, Nat.mod_eq_of_lt htail,
    Ring.count, Nat.sub_add_comm htail.le]

/-- Wrapping increment of a `k`-bit index reduces modulo `2^k`. -/
theorem toNat_add_one_eq_inc (k i : Nat) : (BitVec.ofNat k i + 1#k).toNat = inc (2 ^ k) i := by
  rw [BitVec.toNat_add, BitVec.toNat_ofNat, BitVec.toNat_ofNat, ← Nat.add_mod, inc]

/-- The mask `2^k - 1` keeps every bit of a `k`-bit index. -/
theorem and_mask {k : Nat} (x : BitVec k) : x &&& BitVec.ofNat k (2 ^ k - 1) = x := by
  have hmask : BitVec.ofNat k (2 ^ k - 1) = BitVec.allOnes k := by
    rw [← BitVec.toNat_inj, BitVec.toNat_ofNat, BitVec.toNat_allOnes,
      Nat.mod_eq_of_lt (Nat.sub_one_lt (Nat.two_pow_pos k).ne')]
  rw [hmask, BitVec.and_allOnes]

/-! ### Every other modulus -/

/-- For a modulus that is no power of two, the mask `n - 1` has a 0 below its top bit, so it changes the index whose bits
are all those below the top one. -/
theorem exists_and_mask_ne {n : Nat} (hn : 2 ≤ n) (hpow : ∀ j, n ≠ 2 ^ j) : ∃ i, i < n ∧ i &&& (n - 1) ≠ i := by
  have hlow : 2 ^ (n - 1).log2 ≤ n - 1 := Nat.log2_self_le (by omega)
  have hhigh : n - 1 < 2 ^ ((n - 1).log2 + 1) := Nat.lt_log2_self
  have htop : n ≠ 2 ^ ((n - 1).log2 + 1) := hpow _
  rw [Nat.pow_succ] at hhigh htop
  refine ⟨2 ^ (n - 1).log2 - 1, by omega, fun h => ?_⟩
  rw [Nat.and_comm, Nat.and_two_pow_sub_one_eq_mod, Nat.mod_eq_sub_mod hlow, Nat.mod_eq_of_lt (by omega)] at h
  omega

/-- With `tail` at 0 the count is `head`. -/
theorem count_tail_zero {n i : Nat} (hi : i < n) : Ring.count n ⟨[], i, 0⟩ = i := by
  rw [Ring.count, Nat.sub_zero, Nat.add_mod_left, Nat.mod_eq_of_lt hi]

/-- With `head` at 0 and `tail` just past it the ring is full. -/
theorem count_tail_one {n : Nat} (hn : 0 < n) : Ring.count n ⟨[], 0, 1⟩ = n - 1 :=
  Nat.mod_eq_of_lt (Nat.sub_one_lt hn.ne')

/-- With `tail` at 0 the masked `k`-bit difference is the masked `head`. -/
theorem toNat_sub_zero_and {k i m : Nat} (hi : i < 2 ^ k) (hm : m < 2 ^ k) :
    ((BitVec.ofNat k i - BitVec.ofNat k 0) &&& BitVec.ofNat k m).toNat = i &&& m := by
  rw [BitVec.toNat_and, toNat_sub_eq_count hi (by omega), BitVec.toNat_ofNat, Nat.mod_eq_of_lt hm,
    count_tail_zero hi]

/-- Settles O13: each mask is wrong at the index it changes, wrapping at the last index and on a full ring whose
`head` is behind its `tail`. -/
theorem ringPowerOfTwoForm : Obligations.RingPowerOfTwoForm := by
  refine ⟨fun k head tail _ _ hhead htail => ?_, fun n k hn _ hpow hwidth => ?_⟩
  · rw [and_mask, toNat_sub_eq_count hhead htail, toNat_add_one_eq_inc, Nat.and_two_pow_sub_one_eq_mod]
    exact ⟨rfl, rfl, rfl, rfl⟩
  · obtain ⟨i, hi, hmask⟩ := exists_and_mask_ne hn hpow
    have hlt : n < 2 ^ k := Nat.lt_of_le_of_ne hwidth (hpow k)
    refine ⟨⟨i - 1, by omega, ?incMask⟩, ⟨n - 1, by omega, ?incWrap⟩, ⟨i, 0, hi, by omega, ?countMask⟩,
      ⟨0, 1, by omega, by omega, ?countWrap⟩⟩
    case incMask =>
      have hpos : i ≠ 0 := fun h0 => hmask (by rw [h0, Nat.zero_and])
      rw [inc, Nat.sub_add_cancel (by omega), Nat.mod_eq_of_lt hi]
      exact hmask.symm
    case incWrap =>
      rw [toNat_add_one_eq_inc, inc, inc, Nat.sub_add_cancel (by omega), Nat.mod_self, Nat.mod_eq_of_lt hlt]
      omega
    case countMask =>
      rw [toNat_sub_zero_and (by omega) (by omega), count_tail_zero hi]
      exact hmask.symm
    case countWrap =>
      rw [toNat_sub_eq_count (by omega) (by omega), count_tail_one (by omega), count_tail_one (by omega)]
      omega

end Sys2Proof.Machine
end

section
/-! The serial ring-buffer engine, rule by rule: O21 to O26, O28, O29 (R161 to R180), with the reads of the I2C receive ring
that share its operations (R207 to R209). First what the primitives of a space leave, in the statements' terms; then each
operation the meanings share. -/

namespace Sys2Proof.Machine

/-! ### The primitives of a space (R136 to R138, R143) -/

section
variable {s : State} {sp : Space}

@[simp] theorem slotAt_setRing (r : Ring) (i : Nat) : (s.setRing sp r).slotAt sp i = r.buf.at? i := by
  rw [State.slotAt, ring_setRing]

@[simp] theorem contentsAt_setRing (r : Ring) : (s.setRing sp r).contentsAt sp = r.contents (s.modulus sp) := by
  rw [State.contentsAt, ring_setRing, modulus_setRing]

/-- A ring with room takes a byte; nothing but that ring changes. -/
theorem exists_pushTo (h : (s.ring sp).Ok (s.modulus sp)) (hroom : s.fullAt sp = false) (b : Byte) :
    ∃ r, pushTo sp b s = .ok (s.setRing sp r) ∧ PushedTo sp b s (s.setRing sp r) := by
  have ⟨hhead, _⟩ := h
  have hcontents := h.contents_push (Ring.push_eq_ok (b := b).2 ⟨hroom, hhead, rfl⟩)
  refine ⟨_, pushTo_eq_ok.2 ⟨hroom, hhead, rfl⟩, ?_⟩
  simp only [PushedTo, contentsAt_setRing, slotAt_setRing, ring_setRing, true_and]
  exact ⟨hcontents, rfl, Memory.at?_set_same _ _ _, fun _ hi => Memory.at?_set_other _ _ hi⟩

/-- A ring that is not empty gives up its oldest byte; nothing but that ring's `tail` changes. -/
theorem exists_popFrom (h : (s.ring sp).Ok (s.modulus sp)) (hempty : s.emptyAt sp = false) :
    ∃ v r, popFrom sp s = .ok (v, s.setRing sp r) ∧ PoppedFrom sp v s (s.setRing sp r) := by
  obtain ⟨v, hv⟩ := h.tail_written hempty
  have ⟨_, htail, _⟩ := h
  have hcontents := h.contents_pop (Ring.pop_eq_ok.2 ⟨hempty, htail, hv, rfl⟩)
  refine ⟨v, _, popFrom_eq_ok.2 ⟨hempty, htail, hv, rfl⟩, ?_⟩
  simp only [PoppedFrom, contentsAt_setRing, slotAt_setRing, ring_setRing, true_and]
  exact ⟨hcontents, rfl, fun _ => rfl⟩

/-- `front` shows the byte `pop` would take. -/
theorem frontOf_of_popFrom {v : Byte} {t : State} (h : popFrom sp s = .ok (v, t)) : frontOf sp s = .ok v := by
  obtain ⟨hempty, htail, hv, -⟩ := popFrom_eq_ok.1 h
  exact frontOf_eq_ok.2 ⟨hempty, htail, hv⟩

/-- `push` on `utx` and the transmit interrupt enabled (R163, R175). -/
theorem exists_queueTx (h : s.uart.utx.Ok s.params.nUtx) (hroom : s.fullAt .utx = false) (b : Byte) :
    ∃ r, queueTx b s = .ok { s with uart.utx := r, uart.txie := true }
      ∧ PushedTo .utx b s { s with uart.utx := r } := by
  obtain ⟨r, hpush, hpushed⟩ := exists_pushTo (sp := .utx) h hroom b
  exact ⟨r, by rw [queueTx, hpush]; rfl, hpushed⟩

/-! ### Answers -/

/-- A byte as an answer (R11, R110). -/
theorem zext_byte (v : Byte) : zext v = 0#24 ++ v :=
  BitVec.setWidth_eq_append (by decide : 8 ≤ 32)

/-- A count fits its answer in a ring of a modulus R7 allows. -/
theorem Ring.countWord_fits {n : Nat} (r : Ring) (hpos : 0 < n) (hn : n ≤ 256) :
    (countWord (r.count n)).toNat = r.count n := by
  have hlt : r.count n < n := Nat.mod_lt _ hpos
  rw [countWord, BitVec.toNat_ofNat]
  exact Nat.mod_eq_of_lt (by omega)

/-! ### Reads and peeks (R164, R165, R207, R208) -/

theorem readFrom_of_empty (hempty : s.emptyAt sp = true) : readFrom sp s = .next (s.answering 0xFFFFFFFF#32) :=
  if_pos hempty

theorem exists_readFrom (h : (s.ring sp).Ok (s.modulus sp)) (hempty : s.emptyAt sp = false) :
    ∃ v r, readFrom sp s = .next ((s.setRing sp r).answering (0#24 ++ v))
      ∧ PoppedFrom sp v s (s.setRing sp r) := by
  obtain ⟨v, r, hpop, hpopped⟩ := exists_popFrom h hempty
  refine ⟨v, r, ?_, hpopped⟩
  rw [readFrom, if_neg (Bool.eq_false_iff.1 hempty), hpop, orFault_ok, ← zext_byte]
  rfl

theorem peekAt_of_empty (hempty : s.emptyAt sp = true) : peekAt sp s = .next (s.answering 0xFFFFFFFF#32) :=
  if_pos hempty

theorem exists_peekAt (h : (s.ring sp).Ok (s.modulus sp)) (hempty : s.emptyAt sp = false) :
    ∃ v : Byte, peekAt sp s = .next (s.answering (0#24 ++ v)) ∧ (s.contentsAt sp).head? = some (some v) := by
  obtain ⟨v, r, hpop, hcontents, -⟩ := exists_popFrom h hempty
  refine ⟨v, ?_, by rw [hcontents, List.head?_cons]⟩
  rw [peekAt, if_neg (Bool.eq_false_iff.1 hempty), frontOf_of_popFrom hpop, orFault_ok, ← zext_byte]
  rfl

/-! ### Deliverable events (R325) -/

theorem event_of_ready {d : Bool} {body : Out State} (hd : d = true) : event d s body = body := if_pos hd

theorem txReady_iff : s.txReady = true ↔ s.sys.gie = true ∧ s.uart.txie = true ∧ s.uart.held = false := by
  simp [State.txReady, and_assoc]

theorem rxReady_iff : s.rxReady = true ↔ s.sys.gie = true ∧ s.uart.rxie = true ∧ s.uart.held = false := by
  simp [State.rxReady, and_assoc]

end

/-! ### The statements -/

/-- Settles O22, in the order the rule tests its conditions. -/
theorem uWriteQueuesAnswersOrWaits : Obligations.UWriteQueuesAnswersOrWaits := by
  intro s b hready
  have hexec : exec (.uWrite b) s = _ := command_of_ready hready
  refine ⟨fun hok hroom => ?room, fun hfull hnowait => ?answersZero, fun hfull hheld hgie => ?waits⟩
  case room =>
    obtain ⟨r, hqueue, hpushed⟩ := exists_queueTx hok hroom b
    refine ⟨r, ?_, hpushed⟩
    rw [hexec, hroom, hqueue]
    rfl
  case answersZero =>
    have hcond : (s.uart.held || !s.sys.gie) = true := by simpa using hnowait
    rw [hexec, hfull, hcond]
    rfl
  case waits =>
    rw [hexec, hfull, hheld, hgie]
    rfl

/-- Settles O23: the command, then the two waits. -/
theorem uFlushAndUartWaits : Obligations.UFlushAndUartWaits := by
  intro s
  refine ⟨fun hready => ⟨fun hempty => ?_, fun hempty => ?_⟩,
    fun b hwait hok => ?uWrite, fun hwait => ?uFlush⟩
  · exact (command_of_ready hready).trans (if_pos hempty)
  · exact (command_of_ready hready).trans (if_neg (Bool.eq_false_iff.1 hempty))
  case uWrite =>
    rw [resolveTop, hwait]
    refine ⟨resolveUWrite_full, fun hroom => ?_⟩
    obtain ⟨r, hqueue, hpushed⟩ := exists_queueTx hok hroom b
    refine ⟨r, ?_, hpushed⟩
    simp only [resolveUWrite, hroom, hqueue, orFault_ok]
    rfl
  case uFlush =>
    rw [resolveTop, hwait]
    exact ⟨fun hempty => if_neg (Bool.eq_false_iff.1 hempty), fun hempty => if_pos hempty⟩

/-- Settles O24: one operation on two spaces. -/
theorem readsTakeTheOldestByte : Obligations.ReadsTakeTheOldestByte := by
  intro s hready
  have hURead : exec .uRead s = readFrom .urx s := command_of_ready hready
  have hIRead : exec .iRead s = readFrom .irx s := command_of_ready hready
  rw [hURead, hIRead]
  exact ⟨readFrom_of_empty, fun hempty hok => exists_readFrom (sp := .urx) hok hempty,
    readFrom_of_empty, fun hempty hok => exists_readFrom (sp := .irx) hok hempty⟩

/-- Settles O25: one peek on two spaces, and the counts. -/
theorem peeksAndCountsChangeNothing : Obligations.PeeksAndCountsChangeNothing := by
  intro s hready
  have hUPeek : exec .uPeek s = peekAt .urx s := command_of_ready hready
  have hIPeek : exec .iPeek s = peekAt .irx s := command_of_ready hready
  rw [hUPeek, hIPeek]
  refine ⟨peekAt_of_empty, fun hempty hok => exists_peekAt (sp := .urx) hok hempty,
    peekAt_of_empty, fun hempty hok => exists_peekAt (sp := .irx) hok hempty,
    ⟨_, command_of_ready hready, fun hle hpos => ?_⟩, ⟨_, command_of_ready hready, fun hle hpos => ?_⟩⟩
  · exact (Ring.countWord_fits s.uart.urx hpos hle).trans (Ring.length_contents _ _).symm
  · exact (Ring.countWord_fits s.i2c.irx hpos hle).trans (Ring.length_contents _ _).symm

/-- Settles O21: clearing writes indices only, so no slot is in either list of fields. -/
theorem uBeginAndEnd : Obligations.UBeginAndEnd := fun _ hready =>
  ⟨fun _ => command_of_ready hready, command_of_ready hready⟩

/-- Settles O26, setting by setting. -/
theorem uartSettingsAreRecorded : Obligations.UartSettingsAreRecorded := fun _ hready =>
  ⟨fun _ => command_of_ready hready, fun _ => command_of_ready hready, fun _ => command_of_ready hready,
    command_of_ready hready, command_of_ready hready, command_of_ready hready⟩

/-- Settles O28. -/
theorem transmitReadyEvent : Obligations.TransmitReadyEvent := by
  intro s hgie htxie hheld
  have hexec : exec .evUTxrdy s = _ := event_of_ready (txReady_iff.2 ⟨hgie, htxie, hheld⟩)
  refine ⟨fun hempty => hexec.trans (if_pos hempty), fun hempty hok => ?_⟩
  obtain ⟨v, r, hpop, hpopped⟩ := exists_popFrom (sp := .utx) hok hempty
  have hword : encode (.oUTx v) = 0xD00000#24 ++ v := word_argB 0xD0#8 v
  refine ⟨v, r, ?_, hpopped⟩
  rw [hexec, if_neg (Bool.eq_false_iff.1 hempty), hpop, orFault_ok, ← hword]
  rfl

/-- Settles O29. -/
theorem receiveAndBreakEvents : Obligations.ReceiveAndBreakEvents := by
  intro s b hgie hrxie hheld
  have hready := rxReady_iff.2 ⟨hgie, hrxie, hheld⟩
  have hrxrdy : exec (.evURxrdy b) s = _ := event_of_ready hready
  have hbreak : exec .evUBreak s = _ := event_of_ready hready
  refine ⟨fun hfull => hrxrdy.trans (if_pos hfull), fun hroom hok => ?_,
    fun hcb => hbreak.trans (if_pos hcb), fun hcb => hbreak.trans (if_neg (Bool.eq_false_iff.1 hcb))⟩
  obtain ⟨r, hpush, hpushed⟩ := exists_pushTo (sp := .urx) hok hroom b
  refine ⟨r, ?_, hpushed⟩
  rw [hrxrdy, if_neg (Bool.eq_false_iff.1 hroom), hpush]
  rfl

end Sys2Proof.Machine
end

section
/-! The I2C state machine, its commands: O30 to O33 (R201 to R206, R210, R211). A refused command is one of
`exec_of_refusedWhen`; what is left is what an accepted one writes. -/

namespace Sys2Proof.Machine

section
variable {s : State}

/-! ### Accepted and refused (R200, R321) -/

theorem not_i2cBusy (hidle : s.i2c.phase = .none) : ¬ s.i2cBusy = true := by
  rw [State.i2cBusy, hidle]
  decide

/-- An enabled block with no master operation in progress accepts one. -/
theorem not_masterRefused (hen : s.i2c.en = true) (hidle : s.i2c.phase = .none) :
    ¬ (!s.i2c.en || s.i2cBusy) = true := by
  rw [hen]
  exact not_i2cBusy hidle

theorem masterRefused (h : s.i2c.en = false ∨ s.i2c.phase ≠ .none) : (!s.i2c.en || s.i2cBusy) = true := by
  simpa [State.i2cBusy] using h

/-! ### The length of a request (R206) -/

/-- The cut count fits its field, since the count it is cut from does. -/
theorem requestLength_toNat (s : State) (count : Byte) :
    (s.requestLength count).toNat = min count.toNat (s.params.nIrx - 1) := by
  have hfits : min count.toNat (s.params.nIrx - 1) < 2 ^ 8 := (Nat.min_le_left _ _).trans_lt count.isLt
  rw [State.requestLength, countByte, BitVec.toNat_ofNat, Nat.mod_eq_of_lt hfits]

/-- A ring that holds a byte cuts no other request to nothing. -/
theorem requestLength_eq_zero_iff (hsize : 2 ≤ s.params.nIrx) {count : Byte} :
    s.requestLength count = 0#8 ↔ count.toNat = 0 := by
  rw [BitVec.toNat_eq, requestLength_toNat, BitVec.toNat_ofNat]
  omega

end

/-! ### The statements -/

/-- Settles O30: clearing writes indices only, so no slot is in either list of fields. -/
theorem iBeginAndEnd : Obligations.IBeginAndEnd := fun _ _ _ _ hready =>
  ⟨fun hidle => ⟨(command_of_ready hready).trans (if_neg (not_i2cBusy hidle)),
      (command_of_ready hready).trans (if_neg (not_i2cBusy hidle))⟩,
    fun hbusy => ⟨exec_of_refusedWhen hready (bne_iff_ne.2 hbusy),
      exec_of_refusedWhen hready (bne_iff_ne.2 hbusy)⟩⟩

/-- Settles O31. -/
theorem iBegintxAndCallbacks : Obligations.IBegintxAndCallbacks := fun _ _ _ _ hready =>
  ⟨fun hidle => (command_of_ready hready).trans (if_neg (not_i2cBusy hidle)),
    fun hbusy => exec_of_refusedWhen hready (bne_iff_ne.2 hbusy), command_of_ready hready, command_of_ready hready⟩

/-- Settles O32. -/
theorem iWriteQueuesOrAnswersZero : Obligations.IWriteQueuesOrAnswersZero := by
  intro s b hready
  have hexec : exec (.iWrite b) s = _ := command_of_ready hready
  refine ⟨fun hfull => hexec.trans (if_pos hfull), fun hroom hok => ?_⟩
  obtain ⟨r, hpush, hpushed⟩ := exists_pushTo (sp := .itx) hok hroom b
  refine ⟨r, ?_, hpushed⟩
  rw [hexec, if_neg (Bool.eq_false_iff.1 hroom), hpush]
  rfl

/-- Settles O33: the refusal reads the state before the command, the length of the request decides the rest. -/
theorem masterOperationStarts : Obligations.MasterOperationStarts := by
  intro s count ten addr hready
  refine ⟨fun hen hidle => ?endtx, fun hen hidle hsize => ?reqfrom, fun hrefused => ?refused⟩
  case endtx => exact (command_of_ready hready).trans (if_neg (not_masterRefused hen hidle))
  case reqfrom =>
    have hexec : exec (.iReqfrom count ten addr) s = _ :=
      (command_of_ready hready).trans (if_neg (not_masterRefused hen hidle))
    refine ⟨fun hnone => ?_, fun hsome => ⟨s.requestLength count, requestLength_toNat s count, ?_⟩⟩
    · have hzero := (requestLength_eq_zero_iff hsize).2 hnone
      rw [hexec, if_pos hzero, hzero]
      rfl
    · exact hexec.trans (if_neg (mt (requestLength_eq_zero_iff hsize).1 hsome))
  case refused =>
    exact ⟨exec_of_refusedWhen hready (masterRefused hrefused), exec_of_refusedWhen hready (masterRefused hrefused)⟩

end Sys2Proof.Machine
end

section
/-! The I2C state machine, the waits of a master operation: O35, O36 (R214 to R216, R230). -/

namespace Sys2Proof.Machine

section
variable {s : State}

/-- The deadline of the address phase, by the wrapping difference of the counter (R214, R334). -/
theorem addrExpired_iff : s.addrExpired = true
    ↔ s.params.addrTimeout.toNat ≤ (s.sys.nowMs.toNat + 2 ^ 32 - s.i2c.t0.toNat) % 2 ^ 32 := by
  have hnow := s.sys.nowMs.isLt
  have ht0 := s.i2c.t0.isLt
  rw [State.addrExpired, decide_eq_true_iff, State.elapsed, BitVec.toNat_sub]
  omega

/-! ### The answer of a master operation (R216, R230) -/

theorem masterAnswer_of_error (k : MasterOp) (herr : s.i2c.err ≠ .none) : masterAnswer k s = 0#32 := if_neg herr

theorem masterAnswer_tx (herr : s.i2c.err = .none) : masterAnswer .tx s = 1#32 := if_pos herr

theorem masterAnswer_rx (herr : s.i2c.err = .none) : masterAnswer .rx s = 0#24 ++ s.i2c.got :=
  (if_pos herr).trans (zext_byte _)

/-- With no STOP outstanding the operation is answered and the mode restored (R216; log 19). -/
theorem resolveIStop_of_stopped (k : MasterOp) (hstp : s.i2c.stp = false) :
    resolveIStop k s = .next ((({ s with
      i2c.mode := s.i2c.savedMode.val, i2c.phase := .none, i2c.role := .idle } : State).waiting .none).answering
        (masterAnswer k s)) :=
  if_neg (Bool.eq_false_iff.1 hstp)

end

/-! ### The statements -/

/-- Settles O35, in the order the rule tests its conditions. -/
theorem addressWaitResolves : Obligations.AddressWaitResolves := by
  intro s k hwait
  have hresolve : resolveTop s = resolveIAddr k s := by rw [resolveTop, hwait]
  rw [hresolve, ← Nat.not_le, ← addrExpired_iff]
  exact ⟨fun herr => if_pos herr,
    fun herr hdata => (if_neg (not_not.2 herr)).trans (if_pos hdata),
    fun herr hdata hlate => (if_neg (not_not.2 herr)).trans ((if_neg hdata).trans (if_pos hlate)),
    fun herr hdata hearly => (if_neg (not_not.2 herr)).trans ((if_neg hdata).trans (if_neg hearly))⟩

/-- Settles O36: the end of the operation, then its STOP and the answer, error by error. -/
theorem masterOperationCompletes : Obligations.MasterOperationCompletes := by
  intro s k
  refine ⟨fun hwait => ?done, fun hwait => ?stop⟩
  case done =>
    have hresolve : resolveTop s = resolveIDone k s := by rw [resolveTop, hwait]
    rw [hresolve]
    exact ⟨fun hover => if_pos hover, fun hrole herr => if_neg (not_or.2 ⟨hrole, not_not.2 herr⟩)⟩
  case stop =>
    have hresolve : resolveTop s = resolveIStop k s := by rw [resolveTop, hwait]
    rw [hresolve]
    refine ⟨fun hstp => if_pos hstp, fun hstp => ?_⟩
    rw [resolveIStop_of_stopped k hstp]
    cases herr : s.i2c.err with
    | none =>
      cases k with
      | tx => rw [masterAnswer_tx herr]
      | rx => rw [masterAnswer_rx herr]
    | addrNack | dataNack | busBusy => rw [masterAnswer_of_error k (by rw [herr]; nofun)]

end Sys2Proof.Machine
end

section
/-! The I2C state machine, its events: O37 to O43 (R217 to R228, R322). First the event's deliverability, then each
operation an event performs, then the statements. -/

namespace Sys2Proof.Machine

section
variable {s : State}

/-- `EV_I_DATA` and `EV_I_CTRL` are deliverable (R217, R222, R325). -/
theorem i2cReady_of_enabled (hgie : s.sys.gie = true) (hen : s.i2c.en = true) : s.i2cReady = true := by
  rw [State.i2cReady, hgie, hen]
  rfl

/-! ### The data-ready event (R217 to R221) -/

/-- The role decides what a deliverable `EV_I_DATA` does. -/
theorem exec_evIData_of_ready (hready : s.i2cReady = true) (b : Byte) :
    (s.i2c.role = .idle → exec (.evIData b) s = .next s)
      ∧ (s.i2c.role = .masterTx → exec (.evIData b) s = dataMasterTx s)
      ∧ (s.i2c.role = .masterRx → exec (.evIData b) s = dataMasterRx b s)
      ∧ (s.i2c.role = .slaveTx → exec (.evIData b) s = dataSlaveTx s)
      ∧ (s.i2c.role = .slaveRx → exec (.evIData b) s = dataSlaveRx b s) := by
  have hexec : exec (.evIData b) s = _ := event_of_ready hready
  rw [hexec]
  refine ⟨?_, ?_, ?_, ?_, ?_⟩
  all_goals
    intro hrole
    rw [hrole]

/-- The transmitting roles part only where `itx` is empty (R218, R220). -/
theorem dataMasterTx_eq_dataSlaveTx (hempty : s.emptyAt .itx = false) : dataMasterTx s = dataSlaveTx s :=
  (if_neg (Bool.eq_false_iff.1 hempty)).trans (if_neg (Bool.eq_false_iff.1 hempty)).symm

/-- The next byte of `itx` goes out. -/
theorem exists_dataSlaveTx (hok : s.i2c.itx.Ok s.params.nItx) (hempty : s.emptyAt .itx = false) :
    ∃ v r, dataSlaveTx s = .next (({ s with i2c.itx := r } : State).emitting (0xE10000#24 ++ v))
      ∧ PoppedFrom .itx v s { s with i2c.itx := r } := by
  obtain ⟨v, r, hpop, hpopped⟩ := exists_popFrom (sp := .itx) hok hempty
  have hword : encode (.oITx v) = 0xE10000#24 ++ v := word_argB 0xE1#8 v
  refine ⟨v, r, ?_, hpopped⟩
  rw [dataSlaveTx, if_neg (Bool.eq_false_iff.1 hempty), hpop, orFault_ok, ← hword]
  rfl

/-- In `MASTER_RX` a byte that does not fit is counted like one that is stored (R219). -/
theorem exists_dataMasterRx (hok : s.i2c.irx.Ok s.params.nIrx) (b : Byte) :
    ∃ r, (s.fullAt .irx = true → r = s.i2c.irx)
      ∧ (s.fullAt .irx = false → PushedTo .irx b s { s with i2c.irx := r })
      ∧ dataMasterRx b s = .next (countRx { s with i2c.irx := r }) := by
  cases hfull : s.fullAt .irx with
  | true => exact ⟨s.i2c.irx, fun _ => rfl, nofun, if_pos hfull⟩
  | false =>
    obtain ⟨r, hpush, hpushed⟩ := exists_pushTo (sp := .irx) hok hfull b
    refine ⟨r, nofun, fun _ => hpushed, ?_⟩
    rw [dataMasterRx, if_neg (Bool.eq_false_iff.1 hfull), hpush]
    rfl

theorem countRx_of_last (hlast : s.i2c.got + 1#8 = s.i2c.expect) :
    countRx s = { s with i2c.got := s.i2c.got + 1#8, i2c.role := .idle } := if_pos hlast

/-- One byte before the end STOP is pre-armed. -/
theorem countRx_of_secondToLast (hlast : s.i2c.got + 1#8 ≠ s.i2c.expect)
    (hnext : (s.i2c.got + 1#8).toNat + 1 = s.i2c.expect.toNat) :
    countRx s = ({ s with i2c.got := s.i2c.got + 1#8, i2c.stp := true } : State).emitting 0xE2000000#32 :=
  (if_neg hlast).trans (if_pos hnext)

theorem countRx_of_earlier (hlast : s.i2c.got + 1#8 ≠ s.i2c.expect)
    (hnext : (s.i2c.got + 1#8).toNat + 1 ≠ s.i2c.expect.toNat) :
    countRx s = { s with i2c.got := s.i2c.got + 1#8 } :=
  (if_neg hlast).trans (if_neg hnext)

/-! ### The end of a slave reception (R228) -/

/-- The terminator lies in the slot `head` names, if there is room; the count is the one before it was written. -/
theorem exists_endReception (hok : s.i2c.irx.Ok s.params.nIrx) (hrole : s.i2c.role = .slaveRx) :
    ∃ m : Memory, (s.fullAt .irx = true → m = s.i2c.irx.buf)
      ∧ (s.fullAt .irx = false → m.at? s.i2c.irx.head = some s.params.terminator
        ∧ ∀ i, i ≠ s.i2c.irx.head → m.at? i = s.slotAt .irx i)
      ∧ ctrlStop s = .next (endReception (s.countAt .irx) { s with i2c.irx.buf := m }) := by
  have ⟨hhead, _⟩ := hok
  rw [ctrlStop, hrole]
  cases hfull : s.fullAt .irx with
  | true => exact ⟨s.i2c.irx.buf, fun _ => rfl, nofun, if_pos rfl⟩
  | false =>
    have hmark := markHead_eq_ok (sp := .irx) (v := s.params.terminator).2 ⟨hhead, rfl⟩
    refine ⟨_, nofun, fun _ => ⟨Memory.at?_set_same _ _ _, fun _ hi => Memory.at?_set_other _ _ hi⟩, ?_⟩
    rw [if_neg Bool.false_ne_true, hmark]
    rfl

theorem endReception_of_noCallback (n : Nat) (hcb : s.i2c.cbRcv = false) :
    endReception n s = { s with i2c.role := .idle } :=
  if_neg (Bool.eq_false_iff.1 hcb)

/-- The word that announces a callback carries its byte between two constants (R113). -/
theorem encode_oCb (kind : CbKind) (info : Byte) :
    encode (.oCb kind info) = 0xC000#16 ++ (info ++ (0#6 ++ kind.code)) :=
  (BitVec.append_assoc (x₁ := 0xC0#8) (x₂ := 0#8) (x₃ := info ++ (0#6 ++ kind.code))).symm

theorem endReception_of_callback (n : Nat) (hcb : s.i2c.cbRcv = true) :
    endReception n s = (({ s with i2c.role := .idle } : State).emitting
      (0xC000#16 ++ (countByte n ++ 0x02#8))).windowed .cbRcv := by
  have hword : encode (.oCb .rcv (countByte n)) = 0xC000#16 ++ (countByte n ++ 0x02#8) := encode_oCb .rcv (countByte n)
  rw [← hword]
  exact if_pos hcb

end

/-! ### The statements -/

/-- Settles O37. -/
theorem dataEventMasterTransmit : Obligations.DataEventMasterTransmit := by
  intro s b hgie hen
  obtain ⟨hidle, htx, -⟩ := exec_evIData_of_ready (i2cReady_of_enabled hgie hen) b
  refine ⟨hidle, fun hrole hempty => (htx hrole).trans (if_pos hempty), fun hrole hempty hok => ?_⟩
  rw [htx hrole, dataMasterTx_eq_dataSlaveTx hempty]
  exact exists_dataSlaveTx hok hempty

/-- Settles O38: the byte is stored or not, then counted. -/
theorem dataEventMasterReceive : Obligations.DataEventMasterReceive := by
  intro s b hgie hen hrole hok
  obtain ⟨-, -, hrx, -⟩ := exec_evIData_of_ready (i2cReady_of_enabled hgie hen) b
  obtain ⟨r, hfull, hroom, hcount⟩ := exists_dataMasterRx hok b
  refine ⟨r, hfull, hroom, ?_⟩
  rw [hrx hrole, hcount]
  exact ⟨fun hlast => congrArg Host.Outcome.next (countRx_of_last hlast),
    fun hlast hnext => congrArg Host.Outcome.next (countRx_of_secondToLast hlast hnext),
    fun hlast hnext => congrArg Host.Outcome.next (countRx_of_earlier hlast hnext)⟩

/-- Settles O39. -/
theorem dataEventSlave : Obligations.DataEventSlave := by
  intro s b hgie hen
  obtain ⟨-, -, -, htx, hrx⟩ := exec_evIData_of_ready (i2cReady_of_enabled hgie hen) b
  refine ⟨fun hrole hempty => (htx hrole).trans (if_pos hempty),
    fun hrole hempty hok => htx hrole ▸ exists_dataSlaveTx hok hempty,
    fun hrole hfull => (hrx hrole).trans (if_pos hfull), fun hrole hroom hok => ?_⟩
  obtain ⟨r, hpush, hpushed⟩ := exists_pushTo (sp := .irx) hok hroom b
  refine ⟨r, ?_, hpushed⟩
  rw [hrx hrole, dataSlaveRx, if_neg (Bool.eq_false_iff.1 hroom), hpush]
  rfl

/-- Settles O40: arbitration loss reads no role, NACK reads the role and then the phase. -/
theorem arbitrationLossAndNack : Obligations.ArbitrationLossAndNack := by
  intro s dir hgie hen
  have hready := i2cReady_of_enabled hgie hen
  have hnack : exec (.evICtrl .nack dir) s = ctrlNack s := event_of_ready hready
  refine ⟨event_of_ready hready, fun hrole => hnack.trans (if_pos hrole), fun hrole hphase => ?addr,
    fun hrole hphase => ?data⟩
  case addr =>
    rw [hnack, ctrlNack, if_neg hrole, if_pos hphase]
    rfl
  case data =>
    rw [hnack, ctrlNack, if_neg hrole, if_neg hphase]
    rfl

/-- Settles O41, in the order the rule tests its conditions. -/
theorem startEvent : Obligations.StartEvent := by
  intro s hgie hen
  have hstart : ∀ dir, exec (.evICtrl .start dir) s = ctrlStart dir s := fun _ =>
    event_of_ready (i2cReady_of_enabled hgie hen)
  exact ⟨fun dir hmode => (hstart dir).trans (if_neg (by rw [hmode]; nofun)),
    fun hmode => (hstart false).trans (if_pos hmode),
    fun hmode hcb => (hstart true).trans ((if_pos hmode).trans (if_pos hcb)),
    fun hmode hcb => (hstart true).trans ((if_pos hmode).trans (if_neg (Bool.eq_false_iff.1 hcb)))⟩

/-- Settles O42, role by role; the terminator is written before the role and the window. -/
theorem stopEvent : Obligations.StopEvent := by
  intro s dir hgie hen
  have hstop : exec (.evICtrl .stop dir) s = ctrlStop s := event_of_ready (i2cReady_of_enabled hgie hen)
  rw [hstop]
  refine ⟨fun hrole => ?other, fun hrole => ?slaveTx, fun hrole hok hsize => ?slaveRx⟩
  case other =>
    rw [ctrlStop]
    rcases hrole with hrole | hrole | hrole <;> rw [hrole]
  case slaveTx =>
    rw [ctrlStop, hrole]
    rfl
  case slaveRx =>
    have ⟨hhead, _⟩ := hok
    obtain ⟨m, hfull, hroom, hend⟩ := exists_endReception hok hrole
    have hcount := (Ring.count_fits s.i2c.irx (Nat.zero_lt_of_lt hhead) hsize).trans (Ring.length_contents _ _).symm
    refine ⟨m, countByte (s.countAt .irx), hcount, hfull, hroom, ?_⟩
    rw [hend]
    exact ⟨fun hcb => congrArg Host.Outcome.next (endReception_of_noCallback _ hcb),
      fun hcb => congrArg Host.Outcome.next (endReception_of_callback _ hcb)⟩

/-- Settles O43. -/
theorem polledFlagEvents : Obligations.PolledFlagEvents := by
  intro s
  have hack : s.i2c.phase = .addr → exec .evIAddrack s = _ := fun hphase => event_of_ready (beq_iff_eq.2 hphase)
  exact ⟨fun hphase hrole hone => (hack hphase).trans (if_pos ⟨hrole, hone⟩),
    fun hphase hmore => (hack hphase).trans (if_neg hmore), fun hstp => event_of_ready hstp⟩

end Sys2Proof.Machine
end

section
/-! The SPI unit, rule by rule: O44, O45, O46, O47, O49 (R261 to R274). First what the lock does to the interrupt enables, then
the transfers and the wire order, then the statements. -/

namespace Sys2Proof.Machine

section
variable {s : State}

/-! ### Masking and unmasking one source (R22, R262, R264) -/

/-- A write to one enable writes that bit and no other. -/
theorem getLsbD_setXie (src : Source) (val : Bool) (j : Nat) : (setXie src val s).sys.xie.getLsbD j
    = if j = src.toNat then decide (j < 32) && val else s.sys.xie.getLsbD j := by
  have hrange : s.sys.xie.getLsbD j = true → j < 32 := BitVec.lt_of_getLsbD
  rw [setXie_sys_xie, Bool.eq_iff_iff]
  cases val with
  | false =>
    rw [if_neg Bool.false_ne_true, BitVec.getLsbD_and, BitVec.getLsbD_not, getLsbD_sourceBit]
    by_cases hsrc : j = src.toNat
    · simp [← hsrc]
    · simpa [hsrc] using hrange
  | true =>
    rw [if_pos rfl, BitVec.getLsbD_or, getLsbD_sourceBit]
    by_cases hsrc : j = src.toNat
    · simpa [← hsrc] using hrange
    · simp [hsrc]

/-- Without a configured source the grant masks none. -/
theorem maskSource_of_ne_one (hirq : s.spi.irqMode ≠ .one) : maskSource s = s := by
  unfold maskSource
  cases hmode : s.spi.irqMode with
  | one => exact absurd hmode hirq
  | none | all => rfl

theorem maskSource_of_one (hirq : s.spi.irqMode = .one) : maskSource s = { s with
    sys.xie := (setXie s.spi.irqSrc false s).sys.xie, spi.masked := true, spi.maskedSrc := s.spi.irqSrc } := by
  rw [maskSource, hirq]
  rfl

theorem unmaskSource_of_unmasked (hmasked : s.spi.masked = false) : unmaskSource s = s :=
  if_neg (Bool.eq_false_iff.1 hmasked)

theorem unmaskSource_of_masked (hmasked : s.spi.masked = true) : unmaskSource s = { s with
    sys.xie := (setXie s.spi.maskedSrc true s).sys.xie, spi.masked := false } :=
  if_pos hmasked

/-- Every masking but mask-all leaves interrupts on once the lock is granted (R262). -/
theorem gieGranted_of_ne_all (hirq : s.spi.irqMode ≠ .all) : gieGranted s = true := bne_iff_ne.2 hirq

/-! ### Taking and releasing the lock (R262, R264) -/

/-- A held lock is not waited for: the answer is 0 (R262). -/
theorem exec_sBegintrans_of_held (hready : s.cmdReady = true) (hlock : s.spi.lock = true) (set : SpiSettings) :
    exec (.sBegintrans set) s = .next (({ s with sys.gie := true } : State).answering 0#32) :=
  (command_of_ready hready).trans (if_pos hlock)

theorem exec_sBegintrans_of_free (hready : s.cmdReady = true) (hlock : s.spi.lock = false) (set : SpiSettings) :
    exec (.sBegintrans set) s = .next (hold (.sBegin2 set)
      (setGie (gieGranted s) (maskSource { s with spi.lock := true }))) :=
  (command_of_ready hready).trans (if_neg (Bool.eq_false_iff.1 hlock))

/-- The grant where no one source is masked: only mask-all keeps interrupts off (R262). -/
theorem exec_sBegintrans_of_free_ne_one (hready : s.cmdReady = true) (hlock : s.spi.lock = false)
    (hirq : s.spi.irqMode ≠ .one) (set : SpiSettings) : exec (.sBegintrans set) s
      = .next (({ s with spi.lock := true, sys.gie := gieGranted s } : State).waiting (.sBegin2 set)) := by
  have hmask : maskSource { s with spi.lock := true } = { s with spi.lock := true } := maskSource_of_ne_one hirq
  rw [exec_sBegintrans_of_free hready hlock, hmask]
  rfl

/-- Phase 2: save and apply in one step (R263). -/
theorem resolveTop_of_sBegin2 {set : SpiSettings} (hwait : s.sys.ctx.top.wait = .sBegin2 set) :
    resolveTop s = .next ((({ s with spi.saved := s.spi.cfg, spi.cfg := settingsReg set } : State).waiting
      .none).answering 1#32) := by
  rw [resolveTop, hwait]
  rfl

/-- An accepted `S_ENDTRANS` in a transaction (R264). -/
theorem exec_sEndtrans_of_held (hready : s.cmdReady = true) (hlock : s.spi.lock = true) :
    exec .sEndtrans s
      = .next (respond answerZero (setGie true (setCfg s.spi.saved (unmaskSource { s with spi.lock := false })))) :=
  (command_of_ready hready).trans (if_neg (by rw [hlock]; nofun))

/-! ### Transfers (R267 to R270) -/

/-- A transfer of a unit that is off is refused. -/
theorem spiTransfer_of_off (hen : s.spi.en = false) (len : XferLen) (v : BitVec 16) (r : Word) :
    spiTransfer len v r s = .next (s.illegal 3#32) :=
  if_pos (by rw [hen]; rfl)

/-- A transfer with an order and a mode: the word put out and the value received. -/
theorem spiTransfer_of_known {order : Bool} {mode : BitVec 2} (hen : s.spi.en = true)
    (horder : s.spi.cfg.order = ⟨order, true⟩) (hmode : s.spi.cfg.mode = ⟨mode, true⟩) (len : XferLen) (v : BitVec 16)
    (r : Word) : spiTransfer len v r s
      = .next ((s.emitting (0xF0#8 ++ (0#3 ++ (len.code ++ (mode ++ (bit order ++ v)))))).answering r) := by
  rw [spiTransfer, hen, horder, hmode]
  rfl

/-- What is received is the low part of the MISO signal, in the answer's low bits (R268). -/
theorem zext_draw {n : Nat} (h : n ≤ 16) :
    zext (draw n s) = (0#(32 - n) ++ s.env.miso.extractLsb' 0 n).cast (Nat.sub_add_cancel (by omega)) := by
  rw [draw, BitVec.setWidth_eq_extractLsb' h]
  exact BitVec.setWidth_eq_append (by omega)

theorem exec_sXfer (hready : s.cmdReady = true) (byte : Byte) :
    exec (.sXfer byte) s = spiTransfer .bits8 (0#8 ++ byte) (0#24 ++ s.env.miso.extractLsb' 0 8) s :=
  (command_of_ready hready).trans <| congrArg₂ (spiTransfer .bits8 · · s)
    (BitVec.setWidth_eq_append (by decide : 8 ≤ 16)) (zext_draw (by decide))

theorem exec_sXfer9 (hready : s.cmdReady = true) (nine : BitVec 9) :
    exec (.sXfer9 nine) s = spiTransfer .bits9 (0#7 ++ nine) (0#23 ++ s.env.miso.extractLsb' 0 9) s :=
  (command_of_ready hready).trans <| congrArg₂ (spiTransfer .bits9 · · s)
    (BitVec.setWidth_eq_append (by decide : 9 ≤ 16)) (zext_draw (by decide))

theorem exec_sXfer16 (hready : s.cmdReady = true) (half : BitVec 16) :
    exec (.sXfer16 half) s = spiTransfer .bits16 half (0#16 ++ s.env.miso) s := by
  have hreceived : zext (draw 16 s) = 0#16 ++ s.env.miso.extractLsb' 0 16 := zext_draw (by decide)
  rw [← extract_all s.env.miso, ← hreceived]
  exact command_of_ready hready

/-! ### Wire order (R266) -/

theorem length_wire {n : Nat} (order : Bool) (v : BitVec n) : (wire order v).length = n := by
  simp [wire]

/-- The `i`-th bit on the wire, first bit first. -/
theorem getElem?_wire {n i : Nat} (order : Bool) (v : BitVec n) (hi : i < n) :
    (wire order v)[i]? = some (if order then v.getLsbD (n - 1 - i) else v.getLsbD i) := by
  cases order <;> simp [wire, hi]

/-- Each received bit goes where the bit sent at that place came from. -/
theorem unwire_wire {n : Nat} (order : Bool) (v : BitVec n) : unwire n order (wire order v) = v := by
  refine BitVec.eq_of_getLsbD_eq fun i hi => ?_
  cases order with
  | false => simp [unwire, hi, getElem?_wire]
  | true =>
    have hplace : n - 1 - (n - 1 - i) = i := by omega
    have hlt : n - 1 - i < n := by omega
    simp only [unwire, if_true, BitVec.getLsbD_setWidth, BitVec.getLsbD_ofBoolListBE, length_wire, List.getD_eq_getElem?_getD,
      getElem?_wire true v hlt, hplace, hi, decide_true, Bool.true_and, Option.getD_some]

end

/-! ### The statements -/

/-- Settles O44: the lock decides first, then the masking `S_USINGINT` configured. -/
theorem spiBeginTransaction : Obligations.SpiBeginTransaction := by
  intro s set
  refine ⟨fun hready => ⟨fun hlock => exec_sBegintrans_of_held hready hlock set, fun hlock hirq => ?none,
    fun hlock hirq => ?all, fun hlock hirq => ?one⟩, resolveTop_of_sBegin2⟩
  case none =>
    rw [exec_sBegintrans_of_free_ne_one hready hlock (by rw [hirq]; nofun), gieGranted_of_ne_all (by rw [hirq]; nofun)]
  case all =>
    rw [exec_sBegintrans_of_free_ne_one hready hlock (by rw [hirq]; nofun), gieGranted_eq_false.2 hirq]
  case one =>
    refine ⟨(setXie s.spi.irqSrc false s).sys.xie, ?_, fun j => ?_⟩
    · have hmask := maskSource_of_one (s := { s with spi.lock := true }) hirq
      rw [exec_sBegintrans_of_free hready hlock, hmask, gieGranted_of_ne_all (by rw [hirq]; nofun)]
      rfl
    · rw [getLsbD_setXie]
      by_cases hj : j = s.spi.irqSrc.toNat <;> simp [hj]

/-- Settles O45. -/
theorem spiEndTransaction : Obligations.SpiEndTransaction := by
  intro s hready
  refine ⟨fun hlock => ?refused, fun hlock hmasked => ?unmasked, fun hlock hmasked => ?masked⟩
  case refused => exact (command_of_ready hready).trans (if_pos (by rw [hlock]; rfl))
  case unmasked =>
    have hunmask : unmaskSource { s with spi.lock := false } = { s with spi.lock := false } :=
      unmaskSource_of_unmasked hmasked
    rw [exec_sEndtrans_of_held hready hlock, hunmask]
    rfl
  case masked =>
    refine ⟨(setXie s.spi.maskedSrc true s).sys.xie, ?_, fun j hj => ?_⟩
    · have hunmask := unmaskSource_of_masked (s := { s with spi.lock := false }) hmasked
      rw [exec_sEndtrans_of_held hready hlock, hunmask]
      rfl
    · rw [getLsbD_setXie]
      simp only [hj, decide_true, Bool.and_true]
      by_cases hsrc : j = s.spi.maskedSrc.toNat <;> simp [hsrc]

/-- Settles O46: accepted, each command is its one write and the answer 0. -/
theorem spiConfigurationCommands : Obligations.SpiConfigurationCommands := fun _ hready =>
  ⟨command_of_ready hready, command_of_ready hready, fun _ _ => command_of_ready hready, fun _ => command_of_ready hready,
    fun _ => command_of_ready hready, fun _ => command_of_ready hready⟩

/-- Settles O47: the three lengths are one transfer, with the value and the answer widened. -/
theorem spiTransfers : Obligations.SpiTransfers := by
  intro s byte nine half hready
  rw [exec_sXfer hready, exec_sXfer9 hready, exec_sXfer16 hready]
  exact ⟨fun hen => ⟨spiTransfer_of_off hen _ _ _, spiTransfer_of_off hen _ _ _, spiTransfer_of_off hen _ _ _⟩,
    fun order mode hen horder hmode => ⟨spiTransfer_of_known hen horder hmode _ _ _,
      spiTransfer_of_known hen horder hmode _ _ _, spiTransfer_of_known hen horder hmode _ _ _⟩,
    fun hen hunset => ⟨spiTransfer_of_unset ⟨hen, hunset⟩ _ _ _, spiTransfer_of_unset ⟨hen, hunset⟩ _ _ _,
      spiTransfer_of_unset ⟨hen, hunset⟩ _ _ _⟩⟩

/-- Settles O49. -/
theorem spiWireOrder : Obligations.SpiWireOrder := fun _ order v =>
  ⟨length_wire order v, fun _ hi => getElem?_wire order v hi, unwire_wire order v⟩

end Sys2Proof.Machine
end

section
/-! The SPI transaction over a run: O59, O60 (R277, R278). What a step can do to the SPI unit is said once: nothing, an accepted
SPI command, or phase 2 of `S_BEGINTRANS`. Of these only `S_ENDTRANS` gives the lock back and only phase 2 writes `s_saved`. -/

namespace Sys2Proof.Machine

/-! ### What leaves the SPI unit as it is -/

/-- No field of the SPI unit is written. -/
def KeepsSpi (s t : State) : Prop := t.spi = s.spi

section
variable {sp : Space} {b v : Byte} {s t : State}

theorem pushTo_keepsSpi (h : pushTo sp b s = .ok t) : KeepsSpi s t := by
  obtain ⟨-, -, rfl⟩ := pushTo_eq_ok.1 h
  exact setRing_spi ..

theorem popFrom_keepsSpi (h : popFrom sp s = .ok (v, t)) : KeepsSpi s t := by
  obtain ⟨-, -, -, rfl⟩ := popFrom_eq_ok.1 h
  exact setRing_spi ..

theorem markHead_keepsSpi (h : markHead sp v s = .ok t) : KeepsSpi s t := by
  obtain ⟨-, rfl⟩ := markHead_eq_ok.1 h
  exact setRing_spi ..

theorem queueTx_keepsSpi (h : queueTx b s = .ok t) : KeepsSpi s t := by
  obtain ⟨-, -, rfl⟩ := queueTx_eq_ok.1 h
  rfl

theorem countRx_keepsSpi (s : State) : KeepsSpi s (countRx s) := by
  dsimp only [countRx]
  split
  · rfl
  · split <;> rfl

theorem endReception_keepsSpi (n : Nat) (s : State) : KeepsSpi s (endReception n s) := by
  unfold endReception
  split <;> rfl

theorem leaveWindow_keepsSpi (h : leaveWindow s = some t) : KeepsSpi s t := by
  obtain ⟨f, rest, -, rfl | rfl⟩ := leaveWindow_cases h <;> rfl

/-- A next state whose SPI unit is as before. -/
theorem ensures_keepsSpi (h : t.spi = s.spi) : Ensures (KeepsSpi s) (.next t) := ensures_next h

/-- What follows an operation that keeps the SPI unit, and keeps it too. -/
theorem KeepsSpi.ensures {u : State} (h : KeepsSpi s u) (hnext : t.spi = u.spi) : Ensures (KeepsSpi s) (.next t) :=
  ensures_next (hnext.trans h)

theorem readFrom_keepsSpi (sp : Space) (s : State) : Ensures (KeepsSpi s) (readFrom sp s) :=
  ensures_ite (fun _ => ensures_keepsSpi rfl) fun _ => ensures_orFault fun _ hpop =>
    (popFrom_keepsSpi hpop).ensures rfl

theorem peekAt_keepsSpi (sp : Space) (s : State) : Ensures (KeepsSpi s) (peekAt sp s) :=
  ensures_ite (fun _ => ensures_keepsSpi rfl) fun _ => ensures_orFault fun _ _ => ensures_keepsSpi rfl

theorem execSysIret_keepsSpi (s : State) : Ensures (KeepsSpi s) (execSysIret s) := by
  refine ensures_command rfl fun _ => ?_
  cases hleave : leaveWindow s with
  | none => exact ensures_keepsSpi rfl
  | some t => exact (leaveWindow_keepsSpi hleave).ensures rfl

theorem execUWrite_keepsSpi (b : Byte) (s : State) : Ensures (KeepsSpi s) (execUWrite b s) :=
  ensures_command rfl fun _ => ensures_ite
    (fun _ => ensures_orFault fun _ hq => (queueTx_keepsSpi hq).ensures rfl)
    fun _ => ensures_ite (fun _ => ensures_keepsSpi rfl) fun _ => ensures_keepsSpi rfl

theorem execIWrite_keepsSpi (b : Byte) (s : State) : Ensures (KeepsSpi s) (execIWrite b s) :=
  ensures_command rfl fun _ => ensures_ite (fun _ => ensures_keepsSpi rfl) fun _ =>
    ensures_orFault fun _ hpush => (pushTo_keepsSpi hpush).ensures rfl

/-- A transfer shows the unit and writes nothing of it (R267). -/
theorem spiTransfer_keepsSpi (len : XferLen) (v : BitVec 16) (r : Word) (s : State) :
    Ensures (KeepsSpi s) (spiTransfer len v r s) := by
  refine ensures_ite (fun _ => ensures_keepsSpi rfl) fun _ => ?_
  split
  · exact ensures_keepsSpi rfl
  · exact ensures_fault _

theorem execSGetcfg_keepsSpi (s : State) : Ensures (KeepsSpi s) (execSGetcfg s) := by
  refine ensures_command rfl fun _ => ?_
  split
  · exact ensures_keepsSpi rfl
  · exact ensures_fault _

theorem execEvUTxrdy_keepsSpi (s : State) : Ensures (KeepsSpi s) (execEvUTxrdy s) :=
  ensures_event rfl fun _ => ensures_ite (fun _ => ensures_keepsSpi rfl) fun _ =>
    ensures_orFault fun _ hpop => (popFrom_keepsSpi hpop).ensures rfl

theorem execEvURxrdy_keepsSpi (b : Byte) (s : State) : Ensures (KeepsSpi s) (execEvURxrdy b s) :=
  ensures_event rfl fun _ => ensures_ite (fun _ => ensures_keepsSpi rfl) fun _ =>
    ensures_orFault fun _ hpush => (pushTo_keepsSpi hpush).ensures rfl

/-- The data-ready event, role by role (R217 to R221). -/
theorem execEvIData_keepsSpi (b : Byte) (s : State) : Ensures (KeepsSpi s) (execEvIData b s) := by
  refine ensures_event rfl fun _ => ?_
  cases s.i2c.role with
  | idle => exact ensures_keepsSpi rfl
  | masterTx | slaveTx =>
    exact ensures_ite (fun _ => ensures_keepsSpi rfl) fun _ =>
      ensures_orFault fun _ hpop => (popFrom_keepsSpi hpop).ensures rfl
  | masterRx =>
    exact ensures_ite (fun _ => ensures_keepsSpi (countRx_keepsSpi s)) fun _ => ensures_orFault fun _ hpush =>
      (pushTo_keepsSpi hpush).ensures (countRx_keepsSpi _)
  | slaveRx =>
    exact ensures_ite (fun _ => ensures_keepsSpi rfl) fun _ =>
      ensures_orFault fun _ hpush => (pushTo_keepsSpi hpush).ensures rfl

theorem ctrlStop_keepsSpi (s : State) : Ensures (KeepsSpi s) (ctrlStop s) := by
  unfold ctrlStop
  cases s.i2c.role with
  | slaveRx =>
    exact ensures_ite (fun _ => ensures_keepsSpi (endReception_keepsSpi _ s)) fun _ => ensures_orFault fun _ hmark =>
      (markHead_keepsSpi hmark).ensures (endReception_keepsSpi _ _)
  | slaveTx | idle | masterTx | masterRx => exact ensures_keepsSpi rfl

theorem execEvICtrl_keepsSpi (cause : CtrlCause) (dir : Bool) (s : State) :
    Ensures (KeepsSpi s) (execEvICtrl cause dir s) := by
  refine ensures_event rfl fun _ => ?_
  cases cause with
  | al => exact ensures_keepsSpi rfl
  | nack => exact ensures_ite (fun _ => ensures_keepsSpi rfl) fun _ => ensures_keepsSpi rfl
  | start =>
    exact ensures_ite (fun _ => ensures_ite
      (fun _ => ensures_ite (fun _ => ensures_keepsSpi rfl) fun _ => ensures_keepsSpi rfl)
      fun _ => ensures_keepsSpi rfl) fun _ => ensures_keepsSpi rfl
  | stop => exact ctrlStop_keepsSpi s

/-- Of the wait resolutions only phase 2 of `S_BEGINTRANS` writes the SPI unit (R263, R311). -/
theorem resolveTop_keepsSpi (hwait : ∀ set, s.sys.ctx.top.wait ≠ .sBegin2 set) : Ensures (KeepsSpi s) (resolveTop s) := by
  unfold resolveTop
  cases htop : s.sys.ctx.top.wait with
  | none => exact ensures_keepsSpi rfl
  | uWrite b =>
    exact ensures_ite (fun _ => ensures_keepsSpi rfl) fun _ =>
      ensures_orFault fun _ hq => (queueTx_keepsSpi hq).ensures rfl
  | uFlush | iDone k | iStop k =>
    exact ensures_ite (fun _ => ensures_keepsSpi rfl) fun _ => ensures_keepsSpi rfl
  | iAddr k =>
    exact ensures_ite (fun _ => ensures_keepsSpi rfl) fun _ => ensures_ite (fun _ => ensures_keepsSpi rfl) fun _ =>
      ensures_ite (fun _ => ensures_keepsSpi rfl) fun _ => ensures_keepsSpi rfl
  | sBegin2 set => exact absurd htop (hwait set)

end

/-! ### The instructions that write the SPI unit -/

/-- The commands that write a field of the SPI unit (R261 to R265, R271 to R274). -/
def WritesSpi : Instr → Prop
  | .sBegin => True
  | .sEnd => True
  | .sBegintrans _ => True
  | .sEndtrans => True
  | .sSetdiv _ => True
  | .sSetorder _ => True
  | .sSetmode _ => True
  | .sUsingint _ _ => True
  | _ => False

/-- Only commands write the SPI unit. -/
theorem WritesSpi.isCmd {i : Instr} (h : WritesSpi i) : portOf i = .cmd := by
  cases i
  case sBegin | sEnd | sBegintrans | sEndtrans | sSetdiv | sSetorder | sSetmode | sUsingint => rfl
  all_goals exact h.elim

theorem exec_keepsSpi {i : Instr} (hi : ¬ WritesSpi i) (s : State) : Ensures (KeepsSpi s) (exec i s) := by
  cases i
  case sBegin | sEnd | sBegintrans | sEndtrans | sSetdiv | sSetorder | sSetmode | sUsingint => exact absurd trivial hi
  case sysIret => exact execSysIret_keepsSpi s
  case uWrite b => exact execUWrite_keepsSpi b s
  case iWrite b => exact execIWrite_keepsSpi b s
  case uRead | iRead => exact ensures_command rfl fun _ => readFrom_keepsSpi _ s
  case uPeek | iPeek => exact ensures_command rfl fun _ => peekAt_keepsSpi _ s
  case sXfer | sXfer16 | sXfer9 => exact ensures_command rfl fun _ => spiTransfer_keepsSpi _ _ _ s
  case sGetcfg => exact execSGetcfg_keepsSpi s
  case uFlush | iBegin | iEnd | iBegintx | iEndtx =>
    exact ensures_command rfl fun _ => ensures_ite (fun _ => ensures_keepsSpi rfl) fun _ => ensures_keepsSpi rfl
  case iReqfrom =>
    exact ensures_command rfl fun _ => ensures_ite (fun _ => ensures_keepsSpi rfl) fun _ =>
      ensures_ite (fun _ => ensures_keepsSpi rfl) fun _ => ensures_keepsSpi rfl
  case evUTxrdy => exact execEvUTxrdy_keepsSpi s
  case evURxrdy b => exact execEvURxrdy_keepsSpi b s
  case evIData b => exact execEvIData_keepsSpi b s
  case evICtrl cause dir => exact execEvICtrl_keepsSpi cause dir s
  case evUBreak | evIAddrack =>
    exact ensures_event rfl fun _ => ensures_ite (fun _ => ensures_keepsSpi rfl) fun _ => ensures_keepsSpi rfl
  case evXint | evIStopdone => exact ensures_event rfl fun _ => ensures_keepsSpi rfl
  case evTick | oCb | oUTx | oIStart | oITx | oIStop | oINack | oSXfer => exact ensures_keepsSpi rfl
  all_goals exact ensures_command rfl fun _ => ensures_keepsSpi rfl

/-! ### What a step can do to the SPI unit -/

section
variable {s t : State}

/-- Phase 2 keeps the active configuration in `s_saved` and leaves the lock (R263). -/
theorem step_of_atPhase2 (hphase : s.atPhase2) (hstep : step s = .next t) :
    t.spi.saved = s.spi.cfg ∧ t.spi.lock = s.spi.lock := by
  obtain ⟨hresolve, set, hwait⟩ := hphase
  rw [step_of_resolve hresolve, resolveTop_of_sBegin2 (s := s.presented s.nextEnv) hwait] at hstep
  cases hstep
  exact ⟨rfl, rfl⟩

/-- Everything a step that is not reset can do to the SPI unit. -/
theorem step_spi_cases (hstep : step s = .next t) (hrst : s.nextIn ≠ .rst) :
    KeepsSpi s t
      ∨ (∃ i e, s.accepts i ∧ WritesSpi i ∧ exec i (s.presented e) = .next t)
      ∨ s.atPhase2 := by
  rcases step_cases hstep with ⟨e, hrst', -⟩ | ⟨e, i, w, m, hcmd, hdecode, hexec⟩ | ⟨e, c, w, m, -, -, hreject⟩
    | ⟨e, i, w, -, hdecode, hexec⟩ | ⟨e, w, -, -, rfl⟩ | ⟨e, hresolve, hexec⟩
  · exact absurd hrst' hrst
  · by_cases hi : WritesSpi i
    · cases hready : s.cmdReady with
      | true => exact .inr (.inl ⟨i, e, accepts_iff.2 ⟨w, m, hcmd, hdecode, hready⟩, hi, hexec⟩)
      | false =>
        rw [exec_of_waiting (s := s.presented e) hi.isCmd hready] at hexec
        cases hexec
        exact .inl rfl
    · exact .inl (exec_keepsSpi hi (s.presented e) t hexec)
  · have hanswered : KeepsSpi s (raiseIllegal c (s.presented e)) := rfl
    exact .inl (ensures_command (P := KeepsSpi s) (s := s.presented e) rfl (fun _ => ensures_next hanswered) t hreject)
  · refine .inl (exec_keepsSpi (fun hi => ?_) (s.presented e) t hexec)
    have hunit := cmd_unit_iff.2 hi.isCmd
    have hevent := (decodeEvt_unit hdecode).1
    omega
  · exact .inl rfl
  · by_cases hwait : ∃ set, s.sys.ctx.top.wait = .sBegin2 set
    · exact .inr (.inr ⟨hresolve, hwait⟩)
    · exact .inl (resolveTop_keepsSpi (s := s.presented e) (fun set h => hwait ⟨set, h⟩) t hexec)

/-! ### The lock and the saved configuration -/

@[simp] theorem maskSource_spi_lock (s : State) : (maskSource s).spi.lock = s.spi.lock := by
  unfold maskSource
  split <;> rfl

@[simp] theorem maskSource_spi_saved (s : State) : (maskSource s).spi.saved = s.spi.saved := by
  unfold maskSource
  split <;> rfl

@[simp] theorem unmaskSource_spi_saved (s : State) : (unmaskSource s).spi.saved = s.spi.saved := by
  unfold unmaskSource
  split <;> rfl

/-- Of the commands only `S_ENDTRANS` gives the lock back (R262, R264). -/
theorem exec_keepsLock {i : Instr} (hi : WritesSpi i) (hend : i ≠ .sEndtrans) (s : State) :
    Ensures (fun t => s.spi.lock = true → t.spi.lock = true) (exec i s) := by
  cases i
  case sEndtrans => exact absurd rfl hend
  case sBegintrans =>
    exact ensures_command id fun _ => ensures_ite (fun _ => ensures_next id) fun _ =>
      ensures_next fun _ => maskSource_spi_lock _
  case sBegin | sEnd | sSetdiv | sSetorder | sSetmode | sUsingint => exact ensures_command id fun _ => ensures_next id
  all_goals exact hi.elim

/-- No command writes `s_saved` (R263). -/
theorem exec_keepsSaved {i : Instr} (hi : WritesSpi i) (s : State) :
    Ensures (fun t => t.spi.saved = s.spi.saved) (exec i s) := by
  cases i
  case sBegintrans =>
    exact ensures_command rfl fun _ => ensures_ite (fun _ => ensures_next rfl) fun _ =>
      ensures_next (maskSource_spi_saved _)
  case sEndtrans =>
    exact ensures_command rfl fun _ => ensures_ite (fun _ => ensures_next rfl) fun _ =>
      ensures_next (unmaskSource_spi_saved _)
  case sBegin | sEnd | sSetdiv | sSetorder | sSetmode | sUsingint => exact ensures_command rfl fun _ => ensures_next rfl
  all_goals exact hi.elim

/-- A step that is neither reset nor an accepted `S_ENDTRANS` leaves a held lock held (R277). -/
theorem step_keepsLock (hkeeps : s.keepsLock) (hstep : step s = .next t) (hlock : s.spi.lock = true) :
    t.spi.lock = true := by
  obtain ⟨hrst, hend⟩ := hkeeps
  rcases step_spi_cases hstep hrst with hsame | ⟨i, e, haccepts, hi, hexec⟩ | hphase
  · rwa [hsame]
  · exact exec_keepsLock hi (fun h => hend (h ▸ haccepts)) (s.presented e) t hexec hlock
  · rwa [(step_of_atPhase2 hphase hstep).2]

/-- A step that is neither reset nor phase 2 leaves the saved configuration (R278). -/
theorem step_keepsSaved (hkeeps : s.keepsSaved) (hstep : step s = .next t) : t.spi.saved = s.spi.saved := by
  obtain ⟨hrst, hphase⟩ := hkeeps
  rcases step_spi_cases hstep hrst with hsame | ⟨i, e, -, hi, hexec⟩ | hphase'
  · rw [hsame]
  · exact exec_keepsSaved hi (s.presented e) t hexec
  · exact absurd hphase' hphase

/-! ### Runs (R311, R312) -/

/-- What every step of a run keeps holds at its end. -/
theorem RunWhile.keeps {P Q : State → Prop} (hkeeps : ∀ {s t}, P s → step s = .next t → Q s → Q t)
    (hrun : RunWhile P s t) (hs : Q s) : Q t := by
  induction hrun with
  | done => exact hs
  | more hP hstep _ ih => exact ih (hkeeps hP hstep hs)

end

/-- Settles O59: the lock lasts over the run, and a held lock answers `S_BEGINTRANS` with 0. -/
theorem spiLockExcludes : Obligations.SpiLockExcludes := by
  intro s t hlock hrun
  have hheld : t.spi.lock = true := hrun.keeps (Q := fun u => u.spi.lock = true) step_keepsLock hlock
  refine ⟨hheld, fun set haccepts => ?_⟩
  obtain ⟨w, m, hcmd, hdecode, hready⟩ := accepts_iff.1 haccepts
  refine ⟨{ t.nextEnv with miso := m }, ?_⟩
  rw [step_of_cmd hcmd hdecode]
  exact exec_sBegintrans_of_held (s := t.presented _) hready hheld set

/-- Settles O60: phase 2 saves the active configuration, the run keeps what was saved, `S_ENDTRANS` restores it. -/
theorem spiTransactionRestores : Obligations.SpiTransactionRestores := by
  intro a b c d hphase hsave hrun haccepts hlock hend
  have hsaved : b.spi.saved = a.spi.cfg := (step_of_atPhase2 hphase hsave).1
  have hkept : c.spi.saved = a.spi.cfg := hrun.keeps (Q := fun u => u.spi.saved = a.spi.cfg)
    (fun hP hstep hs => (step_keepsSaved hP hstep).trans hs) hsaved
  obtain ⟨w, m, hcmd, hdecode, hready⟩ := accepts_iff.1 haccepts
  rw [step_of_cmd hcmd hdecode, exec_sEndtrans_of_held (s := c.presented _) hready hlock] at hend
  cases hend
  exact hkept

end Sys2Proof.Machine
end

section
/-! The system unit, rule by rule: O17 to O20 (R302 to R310, R329, R330). First the return from a window with its post-action
and the entry to one, then the statements. -/

namespace Sys2Proof.Machine

section
variable {s : State}

/-! ### `SYS_IRET` (R306, R229) -/

/-- A window is left without a post-action unless it is an on-request window with an empty queue. -/
theorem windowPost_eq_self {k : FrameKind} (h : ¬ (k = .cbReq ∧ s.emptyAt .itx = true)) : windowPost k s = s := by
  rcases windowPost_cases k s with ⟨hkind, hempty, -⟩ | ⟨-, hpost⟩
  · exact absurd ⟨hkind, hempty⟩ h
  · exact hpost

/-- Leaving an on-request window with an empty queue signals NACK (R229). -/
theorem windowPost_of_cbReq_empty (hempty : s.emptyAt .itx = true) : windowPost .cbReq s = emit .oINack s := if_pos hempty

/-- In a window `SYS_IRET` pops the frame, does the post-action of its kind and answers 0. -/
theorem exec_sysIret_of_below {f : Frame} {rest : List Frame} (hready : s.cmdReady = true)
    (hbelow : s.sys.ctx.below = f :: rest) :
    exec .sysIret s = .next (respond answerZero (windowPost s.sys.ctx.top.kind (popFrame f rest s))) := by
  have hleave : leaveWindow s = some (windowPost s.sys.ctx.top.kind (popFrame f rest s)) :=
    leaveWindow_eq_some.2 ⟨f, rest, hbelow, rfl⟩
  simp only [exec, execSysIret, command_of_ready hready, hleave]

/-! ### `EV_XINT` (R310, R329) -/

/-- `EV_XINT src` is deliverable (R310, R325). -/
theorem xintReady_of_enabled {src : Source} (hgie : s.sys.gie = true) (hxie : s.sys.xie.getLsbD src.toNat = true) :
    s.xintReady src = true := Bool.and_eq_true_iff.2 ⟨hgie, hxie⟩

/-- A window is entered with its cause put out (R308, R329). -/
theorem enterWindow_eq (cb : CbKind) (info : Byte) (k : FrameKind) :
    enterWindow cb info k s = (s.emitting (0xC000#16 ++ (info ++ (0#6 ++ cb.code)))).windowed k := by
  rw [← encode_oCb]
  rfl

end

/-! ### The statements -/

/-- Settles O17: both commands are accepted and write one field. -/
theorem sysGieCommands : Obligations.SysGieCommands := fun _ hready =>
  ⟨command_of_ready hready, command_of_ready hready⟩

/-- Settles O18, from the bits a write to one enable leaves. -/
theorem sysXieCommand : Obligations.SysXieCommand := by
  intro s src val hready hsrc
  refine ⟨(setXie src val s).sys.xie, command_of_ready hready, ?_, fun j hj => ?_⟩
  · rw [getLsbD_setXie, if_pos rfl, decide_eq_true hsrc, Bool.true_and]
  · rw [getLsbD_setXie, if_neg hj]

/-- Settles O19: in a window by its post-action, in foreground as a refusal. -/
theorem sysIretReturns : Obligations.SysIretReturns := by
  intro s hready
  refine ⟨fun f rest hbelow => ⟨fun hquiet => ?returns, fun hkind hqueue => ?signalsNack⟩, fun hbelow => ?refused⟩
  case returns =>
    have hpost : windowPost s.sys.ctx.top.kind (popFrame f rest s) = popFrame f rest s :=
      windowPost_eq_self fun ⟨hkind, hempty⟩ => hquiet ⟨hkind, beq_iff_eq.1 hempty⟩
    rw [exec_sysIret_of_below hready hbelow, hpost]
    rfl
  case signalsNack =>
    have hempty : (popFrame f rest s).emptyAt .itx = true := beq_iff_eq.2 hqueue
    rw [exec_sysIret_of_below hready hbelow, hkind, windowPost_of_cbReq_empty hempty]
    rfl
  case refused =>
    have hdepth : refusedWhen .sysIret s = true := beq_iff_eq.2 (congrArg List.length hbelow)
    exact exec_of_refusedWhen hready hdepth

/-- Settles O20: the tick wraps as 32-bit addition does; a deliverable interrupt enters its window. -/
theorem tickAndExternalInterrupt : Obligations.TickAndExternalInterrupt := by
  refine fun s => ⟨⟨s.sys.nowMs + 1#32, rfl, BitVec.toNat_add _ _⟩, fun src hgie hxie => ?_⟩
  have hexec : exec (.evXint src) s = .next (enterWindow .xint src (.xisr src) s) :=
    event_of_ready (xintReady_of_enabled hgie hxie)
  rw [hexec, enterWindow_eq]
  rfl

end Sys2Proof.Machine
end

section
/-! Events that are not deliverable: O8 (R325). Each row of the deliverability table as an `↔` with the rule's condition,
then the statement. -/

namespace Sys2Proof.Machine

section
variable {s : State}

/-- An event whose deliverability fails is not accepted and leaves the state. -/
theorem event_of_not_ready {d : Bool} {body : Out State} (hd : ¬ d = true) : event d s body = .next s := if_neg hd

theorem i2cReady_iff : s.i2cReady = true ↔ s.sys.gie = true ∧ s.i2c.en = true := Bool.and_eq_true_iff

theorem xintReady_iff {src : Source} :
    s.xintReady src = true ↔ s.sys.gie = true ∧ s.sys.xie.getLsbD src.toNat = true := Bool.and_eq_true_iff

theorem ackReady_iff : s.ackReady = true ↔ s.i2c.phase = .addr := beq_iff_eq

theorem stopReady_iff : s.stopReady = true ↔ s.i2c.stp = true := Iff.rfl

end

/-- Settles O8, row by row of the deliverability table: no body of an event is looked at, only its guard. -/
theorem undeliverableEventChangesNothing : Obligations.UndeliverableEventChangesNothing := by
  intro s b src cause dir
  refine ⟨fun htx => ?txrdy, fun hrx => ?rx, fun hi2c => ?i2c, fun hxint => ?xint, fun hphase => ?addrack,
    fun hstp => ?stopdone⟩
  case txrdy => exact event_of_not_ready (mt txReady_iff.1 htx)
  case rx =>
    have hready : ¬ s.rxReady = true := mt rxReady_iff.1 hrx
    exact ⟨event_of_not_ready hready, event_of_not_ready hready⟩
  case i2c =>
    have hready : ¬ s.i2cReady = true := mt i2cReady_iff.1 hi2c
    exact ⟨event_of_not_ready hready, event_of_not_ready hready⟩
  case xint => exact event_of_not_ready (mt xintReady_iff.1 hxint)
  case addrack => exact event_of_not_ready (mt ackReady_iff.1 hphase)
  case stopdone => exact event_of_not_ready (mt stopReady_iff.1 (Bool.eq_false_iff.1 hstp))

end Sys2Proof.Machine
end

section
/-! The reset values: O9 (R360, R361). The table is read once, off the reset step; the start state is a result of that
step too. -/

namespace Sys2Proof.Machine

@[simp] theorem ring_resetStep (s : State) (sp : Space) : (resetStep s).ring sp = Ring.reset := by cases sp <;> rfl

/-- After reset no slot of any ring holds a value (R26, R361). -/
theorem slotAt_resetStep (s : State) (sp : Space) (i : Nat) : (resetStep s).slotAt sp i = none := by
  rw [State.slotAt, ring_resetStep]
  rfl

/-- Reset in the start state leaves the start state, so that state is a result of the reset step (R360). -/
theorem resetStep_reset : resetStep State.reset = State.reset := rfl

/-- The reset step leaves every field at its value of R361, whatever state it is taken in: the slots by the storage of the
four rings, the other lines by the reset record of their unit. -/
theorem resetStep_atReset (s : State) : AtReset (resetStep s) := by
  simp [AtReset, slotAt_resetStep, System.reset, Ctx.reset, Outputs.reset, Ring.reset, Uart.reset, I2c.reset, Spi.reset]

/-- Settles O9: the start state and what a step presented with `RST` leaves are both results of the reset step. -/
theorem resetValues : Obligations.ResetValues := by
  refine ⟨?start, fun s rest hscript => ?step⟩
  case start =>
    rw [← resetStep_reset]
    exact resetStep_atReset State.reset
  case step => exact ⟨_, step_of_rst (nextIn_of_script hscript), resetStep_atReset _⟩

end Sys2Proof.Machine
end
